-- ==== Sys2Proof/Word.lean ====
section
/-! DEFINITION. The word types of the block: bytes, 16-bit report fields, and the two report buffers
(spec/00_scope.md R11, spec/20_memory.md R50). -/

namespace Sys2Proof

/-- A byte is 8 bits; bit 0 is the least significant (R11). -/
abbrev Byte := BitVec 8

/-- A `u16` field of a report (R88). -/
abbrev Half := BitVec 16

/-- The query response: 21 bytes, offset 0 first (R50, R82). -/
abbrev QueryBuf := Vector Byte 21

/-- The pen report: 22 bytes, offset 0 first (R50, R84). -/
abbrev ReportBuf := Vector Byte 22

end Sys2Proof
end

