-- ==== Sys2Proof/Syntax.lean ====
section
/-! DEFINITION. The operations of the block, one constructor per row of spec/opcode_table.json
(spec/30_encoding.md R95), and the two record types that occur as operands or results of them. -/

namespace Sys2Proof

/-- The tool kind (R24); its code as an operand is `Pen = 0`, `Rubber = 1` (R87). -/
inductive ToolKind where
  | pen
  | rubber
deriving DecidableEq, Repr, Inhabited

/-- ToolState: the proximity flag and the tool kind of the last decoded report (R24, R87). -/
structure ToolState where
  prox : Bool
  kind : ToolKind
deriving DecidableEq, Repr, Inhabited

/-- CapabilityLimits, the eight fields decoded from a query response (R22); all unsigned (R82). -/
structure Limits where
  xMax : Half
  yMax : Half
  pressureMax : Half
  fwVersion : Half
  distanceMax : Byte
  distancePhysicalMax : Byte
  tiltXMax : Half
  tiltYMax : Half
deriving DecidableEq, Repr, Inhabited

/-- One operation with its operands, the rows of R95's table in the table's order. A signed operand is an
exact integer here; `Instr.WellFormed` says it fits the 32 bits the table gives it. -/
inductive Instr where
  /-- `SYS.RESET` (R280). -/
  | sysReset
  /-- `QRY.XFER` (R112). -/
  | qryXfer
  /-- `QRY.DEC qbuf` (R111). -/
  | qryDec (qbuf : QueryBuf)
  /-- `PEN.IRQ` (R131); started by an interrupt edge, never by the host (R98). -/
  | penIrq
  /-- `PEN.DEC raw, ts` (R130). -/
  | penDec (raw : ReportBuf) (ts : ToolState)
  /-- `IRQ.EN` (R146). -/
  | irqEn
  /-- `IRQ.DIS` (R147). -/
  | irqDis
  /-- `RAIL.EN` (R161). -/
  | railEn
  /-- `RAIL.DIS` (R170). -/
  | railDis
  /-- `RAIL.ISEN` (R175). -/
  | railIsen
  /-- `RAIL.STAT` (R177). -/
  | railStat
  /-- `VCOM.DEC low, high` (R200). -/
  | vcomDec (low high : Byte)
  /-- `VCOM.DECUV low, high` (R201). -/
  | vcomDecuv (low high : Byte)
  /-- `VCOM.ENC m` (R202). -/
  | vcomEnc (m : Int)
  /-- `VCOM.RDMV` (R205). -/
  | vcomRdmv
  /-- `VCOM.RDUV` (R206). -/
  | vcomRduv
  /-- `VCOM.WRMV v` (R207). -/
  | vcomWrmv (v : Int)
  /-- `FLT.STATE` (R231). -/
  | fltState
  /-- `FLT.PG` (R232). -/
  | fltPg
deriving DecidableEq, Repr

end Sys2Proof
end

