-- ==== Sys2Proof/WellFormed.lean ====
section
/-! DEFINITION. Which terms of `Instr` are operations the host can issue: a signed operand is a 32-bit
integer (spec/30_encoding.md R90, spec/opcode_table.json `source_fields`). The lengths of the two buffers
are in their types (spec/20_memory.md R55). -/

namespace Sys2Proof

/-- `v` fits 32-bit two's complement (R90, R14). -/
def fitsSigned32 (v : Int) : Bool :=
  decide (-(2 ^ 31) ≤ v) && decide (v < 2 ^ 31)

/-- Every operand is in the range its table row gives it. A value outside an operation's accepted range
(R100) but inside 32 bits is well-formed: the operation answers RangeError. -/
def Instr.wellFormed (i : Instr) : Bool :=
  match i with
  | .sysReset => true
  | .qryXfer => true
  | .qryDec _ => true
  | .penIrq => true
  | .penDec _ _ => true
  | .irqEn => true
  | .irqDis => true
  | .railEn => true
  | .railDis => true
  | .railIsen => true
  | .railStat => true
  | .vcomDec _ _ => true
  | .vcomDecuv _ _ => true
  | .vcomEnc m => fitsSigned32 m
  | .vcomRdmv => true
  | .vcomRduv => true
  | .vcomWrmv v => fitsSigned32 v
  | .fltState => true
  | .fltPg => true

end Sys2Proof
end

