-- ==== Sys2Proof/Decode.lean ====
section
/-! DEFINITION. The command map (spec/30_encoding.md R95, R98): from a command code and the bytes of its
operands to an operation, and back. The codes are the spec's; the byte frame that carries the operands is
the model's (DESIGN CHOICE, log entry 1): the operands follow the code in the order of R95's table, byte
buffers with offset 0 first, ToolState in the low two bits of one byte (R87), a signed operand as four
little-endian bytes of two's complement (R90). -/

namespace Sys2Proof

/-- Why bytes are no command. -/
inductive DecodeError where
  /-- There is not even a command code. -/
  | noCode
  /-- The code is not in R95's table (R98). -/
  | illegalCommand (code : Byte)
  /-- The code is in the table and its operands are not all there (log entry 2). -/
  | operandsMissing (code : Byte)
deriving DecidableEq, Repr

/-- What the decoder answers: an operation and the bytes behind it, or the reason there is none. -/
inductive Decoded where
  | ok (i : Instr) (rest : List Byte)
  | bad (e : DecodeError)
deriving DecidableEq, Repr

/-- The first `n` bytes as a buffer, and the rest. -/
def takeBuf (n : Nat) (l : List Byte) : Option (Vector Byte n × List Byte) :=
  if h : n ≤ l.length then some (⟨(l.take n).toArray, by simp [h]⟩, l.drop n) else none

/-- Four little-endian bytes as a signed 32-bit integer (R90). -/
def signed32 (b0 b1 b2 b3 : Byte) : Int :=
  (b3 ++ b2 ++ b1 ++ b0).toInt

/-- Format `TS` (R87): bit 0 is `prox`, bit 1 is `kind` with `Pen = 0`, `Rubber = 1`. The other bits of
the byte that carries it are ignored. -/
def toolStateOf (b : Byte) : ToolState :=
  { prox := b.getLsbD 0, kind := if b.getLsbD 1 then .rubber else .pen }

/-- Operands of `QRY.DEC`. -/
def decodeQbuf (code : Byte) (l : List Byte) : Decoded :=
  match takeBuf 21 l with
  | some (q, rest) => .ok (.qryDec q) rest
  | none => .bad (.operandsMissing code)

/-- Operands of `PEN.DEC`. -/
def decodeRaw (code : Byte) (l : List Byte) : Decoded :=
  match takeBuf 22 l with
  | some (r, t :: rest) => .ok (.penDec r (toolStateOf t)) rest
  | _ => .bad (.operandsMissing code)

/-- Two byte operands `low`, `high`. -/
def decodePair (code : Byte) (mk : Byte → Byte → Instr) (l : List Byte) : Decoded :=
  match l with
  | low :: high :: rest => .ok (mk low high) rest
  | _ => .bad (.operandsMissing code)

/-- One signed 32-bit operand. -/
def decodeInt (code : Byte) (mk : Int → Instr) (l : List Byte) : Decoded :=
  match l with
  | b0 :: b1 :: b2 :: b3 :: rest => .ok (mk (signed32 b0 b1 b2 b3)) rest
  | _ => .bad (.operandsMissing code)

/-- The operation map of R95; every other code is illegal (R98). -/
def decode (bytes : List Byte) : Decoded :=
  match bytes with
  | [] => .bad .noCode
  | code :: l =>
    match code.toNat with
    | 0x00 => .ok .sysReset l
    | 0x10 => .ok .qryXfer l
    | 0x11 => decodeQbuf code l
    | 0x20 => .ok .penIrq l
    | 0x21 => decodeRaw code l
    | 0x22 => .ok .irqEn l
    | 0x23 => .ok .irqDis l
    | 0x30 => .ok .railEn l
    | 0x31 => .ok .railDis l
    | 0x32 => .ok .railIsen l
    | 0x33 => .ok .railStat l
    | 0x40 => decodePair code .vcomDec l
    | 0x41 => decodePair code .vcomDecuv l
    | 0x42 => decodeInt code .vcomEnc l
    | 0x43 => .ok .vcomRdmv l
    | 0x44 => .ok .vcomRduv l
    | 0x45 => decodeInt code .vcomWrmv l
    | 0x50 => .ok .fltState l
    | 0x51 => .ok .fltPg l
    | _ => .bad (.illegalCommand code)

/-! ### The encoder -/

/-- The command code of an operation (R95). -/
def Instr.code (i : Instr) : Byte :=
  match i with
  | .sysReset => 0x00
  | .qryXfer => 0x10
  | .qryDec _ => 0x11
  | .penIrq => 0x20
  | .penDec _ _ => 0x21
  | .irqEn => 0x22
  | .irqDis => 0x23
  | .railEn => 0x30
  | .railDis => 0x31
  | .railIsen => 0x32
  | .railStat => 0x33
  | .vcomDec _ _ => 0x40
  | .vcomDecuv _ _ => 0x41
  | .vcomEnc _ => 0x42
  | .vcomRdmv => 0x43
  | .vcomRduv => 0x44
  | .vcomWrmv _ => 0x45
  | .fltState => 0x50
  | .fltPg => 0x51

/-- Four little-endian bytes of two's complement (R90). -/
def signed32Bytes (v : Int) : List Byte :=
  let w := BitVec.ofInt 32 v
  [w.extractLsb' 0 8, w.extractLsb' 8 8, w.extractLsb' 16 8, w.extractLsb' 24 8]

/-- Format `TS` in one byte (R87). -/
def toolStateByte (ts : ToolState) : Byte :=
  (if ts.prox then 1 else 0) ||| (if ts.kind = .rubber then 2 else 0)

/-- The operand bytes of an operation. -/
def Instr.operands (i : Instr) : List Byte :=
  match i with
  | .sysReset => []
  | .qryXfer => []
  | .qryDec q => q.toList
  | .penIrq => []
  | .penDec r ts => r.toList ++ [toolStateByte ts]
  | .irqEn => []
  | .irqDis => []
  | .railEn => []
  | .railDis => []
  | .railIsen => []
  | .railStat => []
  | .vcomDec low high => [low, high]
  | .vcomDecuv low high => [low, high]
  | .vcomEnc m => signed32Bytes m
  | .vcomRdmv => []
  | .vcomRduv => []
  | .vcomWrmv v => signed32Bytes v
  | .fltState => []
  | .fltPg => []

/-- The bytes of a command: its code, then its operands. -/
def encode (i : Instr) : List Byte :=
  i.code :: i.operands

/-- Whether the host may issue the operation: `PEN.IRQ` is started by an edge only (R98). -/
def Instr.hostIssued (i : Instr) : Bool :=
  i.code != 0x20

/-! ### The table's words -/

/-- The longest operand list, `PEN.DEC`'s. -/
def maxOperandBytes : Nat := 23

/-- The low `n` bytes of `w`, least significant first. -/
def wordBytes (w : Nat) (n : Nat) : List Byte :=
  match n with
  | 0 => []
  | k + 1 => BitVec.ofNat 8 w :: wordBytes (w >>> 8) k

/-- A table word as a command frame: its bytes, then operand bytes of zeros. -/
def tableFrame (nbits w : Nat) : List Byte :=
  wordBytes w ((nbits + 7) / 8) ++ List.replicate maxOperandBytes 0

/-- The operation the decoder reads from a table word. -/
def decodeTableWord (nbits w : Nat) : Option Instr :=
  match decode (tableFrame nbits w) with
  | .ok i _ => some i
  | .bad _ => none

end Sys2Proof
end

