-- ==== Sys2Proof/Config.lean ====
section
/-! DEFINITION. What an implementation fixes and what the environment is free to choose
(spec/00_scope.md R7, R12, R13). A constant without a body is open: no proof can see its value. -/

namespace Sys2Proof

/-- A port's own error value, carried and never interpreted (spec/60_exceptions.md R242).
DESIGN CHOICE (log entry 14): an integer label. -/
abbrev ErrVal := Int

/-- What one `BusTransfer` answers (R12, R115): the transport's error, a completion of only `k < 2`
messages, or both messages done with the 21 bytes read. -/
inductive TransferAnswer where
  | err (e : ErrVal)
  | short (k : Fin 2)
  | full (rx : QueryBuf)
deriving DecidableEq, Repr, Inhabited

/-- What one `BusRecv(addr, 22)` answers: an error or exactly 22 bytes (R12, R55). -/
inductive RecvAnswer where
  | err (e : ErrVal)
  | ok (raw : ReportBuf)
deriving DecidableEq, Repr, Inhabited

/-- What one `RegWrite` or `RailWrite` answers. A failed write leaves its one target old or new, the
environment's draw: `took` says the new value was latched (spec/10_state.md R36, spec/60_exceptions.md R255). -/
inductive WriteAnswer where
  | ok
  | err (e : ErrVal) (took : Bool)
deriving DecidableEq, Repr, Inhabited

/-- Whether one read of a chip element that is plain state (`chip.rail_on`, `chip.vcom_*`) succeeds; the
value of a successful one is that element's (spec/10_state.md R36, spec/43_vcom_codec.md R208). -/
inductive ReadAnswer where
  | ok
  | err (e : ErrVal)
deriving DecidableEq, Repr, Inhabited

/-- What one `RegRead(REG_FAULT)` answers: the register is volatile, each read a fresh draw
(spec/20_memory.md R60, spec/93_implementation_defined.md U9, U22). -/
inductive ByteAnswer where
  | ok (v : Byte)
  | err (e : ErrVal)
deriving DecidableEq, Repr, Inhabited

/-- What one `GpioRead()` answers: the level of the power-good line at that instant, or an error
(R12, spec/10_state.md R38). -/
inductive LineAnswer where
  | level (b : Bool)
  | err (e : ErrVal)
deriving DecidableEq, Repr, Inhabited

/-- What one `RailQuery()` answers: the chip's bit, or an error (R12). -/
inductive BitAnswer where
  | ok (b : Bool)
  | err (e : ErrVal)
deriving DecidableEq, Repr, Inhabited

/-- The power-chip registers the block reaches (spec/20_memory.md R50). -/
inductive ChipReg where
  | opmode
  | vcomL
  | vcomH
  | fault
deriving DecidableEq, Repr, Inhabited

namespace Config

/-! ### Fixed parameters (R7), durations in microseconds -/

/-- `QRY_LEN`. -/
def qryLen : Nat := 21
/-- `PEN_LEN`. -/
def penLen : Nat := 22
/-- `POLL_MAX`: the most power-good reads of one poll loop. -/
def pollMax : Nat := 500
/-- `POLL_SLEEP_MIN`, 1.0 ms. -/
def pollSleepMin : Nat := 1000
/-- `POLL_SLEEP_MAX`, 1.5 ms. -/
def pollSleepMax : Nat := 1500
/-- `RAMP_SLEEP_MIN`, 30 ms. -/
def rampSleepMin : Nat := 30000
/-- `RAMP_SLEEP_MAX`, 35 ms. -/
def rampSleepMax : Nat := 35000
/-- `VCOM_MAX_MV`. -/
def vcomMaxMv : Int := 5000
/-- `VCOM_MASK`. -/
def vcomMask : Half := 0x1FF
/-- `VCOM_STEP_MV`. -/
def vcomStepMv : Int := 10
/-- `VCOM_STEP_UV`. -/
def vcomStepUv : Int := 10000

/-! ### Open parameters (R7, spec/93_implementation_defined.md U20; log entry 16) -/

/-- The five bytes of `QRY_FRAME` other than the one the source gives (spec/30_encoding.md R81). -/
opaque frameRest : Vector Byte 5
/-- Where the byte `0x33` stands in `QRY_FRAME`; the source does not give its place. -/
opaque framePlace : Fin 6
/-- `QRY_FRAME`: six bytes, one of them `0x30 OR 3 = 0x33` (R7, R81). -/
def qryFrame : Vector Byte 6 :=
  frameRest.insertIdx framePlace.val 0x33 (by omega)
/-- `DIGITIZER_ADDR`, a 7-bit bus address. -/
opaque digitizerAddr : BitVec 7
/-- `HAS_RESET`: whether a reset control is present. -/
opaque hasReset : Bool
/-- `REG_OPMODE`, `REG_VCOM_L`, `REG_VCOM_H`, `REG_FAULT`. No rule depends on the numbers
(spec/92_eei_decisions.md D38): the model names registers by `ChipReg`. -/
opaque regAddr : ChipReg → Byte
/-- The registers' addresses are pairwise distinct (spec/92_eei_decisions.md D38): a condition on an
implementation, assumed by no definition of the model. -/
def addrsDistinct : Prop := Function.Injective regAddr
/-- `ONOFF_BIT` of `REG_OPMODE`; the model speaks of the one bit `chip.rail_on` (D24). -/
opaque onOffBit : Fin 8
/-- The fifteen state strings the source does not give (spec/44_fault_status.md R233). -/
opaque otherString : Fin 16 → String
/-- `STATE_STRINGS`: entry 2 is the source's (R233; log entry 26). -/
def stateString (idx : Fin 16) : String :=
  if idx = 2 then "UVP at VN rail" else otherString idx

/-! ### Free values: what ENV answers where its script says nothing (R13; log entry 3) -/

/-- The `n`-th unscripted answer of `BusTransfer`. -/
opaque freeTransfer : Nat → TransferAnswer
/-- The `n`-th unscripted answer of `BusRecv`. -/
opaque freeRecv : Nat → RecvAnswer
/-- The `n`-th unscripted answer of `RailWrite`. -/
opaque freeRailWrite : Nat → WriteAnswer
/-- The `n`-th unscripted answer of `RailQuery`. -/
opaque freeRailQuery : Nat → ReadAnswer
/-- The `n`-th unscripted answer of `GpioRead`. -/
opaque freeLine : Nat → LineAnswer
/-- The `n`-th unscripted overrun of a `Sleep` above its lower bound (R300). -/
opaque freeSleep : Nat → Nat
/-- The `n`-th unscripted answer of a `RegRead` of a VCOM register. -/
opaque freeVcomRead : Nat → ReadAnswer
/-- The `n`-th unscripted answer of `RegRead(REG_FAULT)`. -/
opaque freeFaultRead : Nat → ByteAnswer
/-- The `n`-th unscripted answer of `RegWrite`. -/
opaque freeVcomWrite : Nat → WriteAnswer
/-- The `n`-th unscripted time the port accesses of a poll add to `elapsed` (R167). -/
opaque freeOverhead : Nat → Nat
/-- `tool.kind` after the `n`-th `SYS.RESET`: unspecified (R280; log entry 7). -/
opaque freeKind : Nat → ToolKind
/-- The `caps` fields after the `n`-th `SYS.RESET`: unspecified (R280; log entry 7). -/
opaque freeLimits : Nat → Limits

end Config

end Sys2Proof
end

