-- ==== Sys2Proof/Machine/State.lean ====
section
/-! DEFINITION. The state of the block as plain data (spec/10_state.md R20): the `DIG` half, the `PWR` half,
what the host and the environment do next, and what the host has seen. The two halves are two structures
because they share nothing (R21). The fields that are the model's own are named so. -/

namespace Sys2Proof.Machine

/-! ### Errors and results -/

/-- The error results (spec/60_exceptions.md R240), a closed set. -/
inductive Error where
  /-- A failing `BusTransfer`, `RegRead`, `RegWrite`, `RailWrite` or `RailQuery`; carries `e` unchanged (R242). -/
  | transport (e : ErrVal)
  /-- Fewer than two messages completed (spec/40_query_report.md R115). -/
  | protocol
  /-- A VCOM operand outside its domain (spec/43_vcom_codec.md R202, R207). -/
  | range
  /-- 500 reads answered 0; `elapsed` in microseconds (spec/42_power_rail_sequencer.md R167). -/
  | timeout (elapsed : BitVec 32)
  /-- A failing `GpioRead` (R164, R178). -/
  | gpioRead (e : ErrVal)
  /-- Raised only by the excluded attach code, by no operation of the block (R240 row 6). -/
  | resourceAcquisition
  /-- Internal to `PEN.IRQ`, never returned to the host (R243). -/
  | deviceRead (e : ErrVal)
  /-- The fault index is 16 or more (spec/44_fault_status.md R231). -/
  | statusIndex (idx : BitVec 7)
  /-- `QRY.XFER` while `caps.valid = 1` (R117). -/
  | sequence
  /-- A command code with no operation (spec/30_encoding.md R98). -/
  | illegalCommand
deriving DecidableEq, Repr

/-- PenSample (spec/10_state.md R23), in the attribute order of spec/41_pen_report.md R140. -/
structure PenSample where
  touch : Bool
  eraser : Bool
  stylusButton1 : Bool
  stylusButton2 : Bool
  inProximity : Bool
  toolKind : ToolKind
  x : Half
  y : Half
  pressure : Half
  distance : Byte
  tiltX : Int
  tiltY : Int
deriving DecidableEq, Repr

/-- A result returned to the host (spec/00_scope.md R14, spec/30_encoding.md R95). -/
inductive Result where
  /-- `Ok` with nothing beside it. -/
  | ok
  /-- `QRY.XFER`, `QRY.DEC`, and the host's read of the limits in `caps`. -/
  | limits (l : Limits)
  /-- `PEN.DEC`. -/
  | sample (s : PenSample) (ts : ToolState)
  /-- `RAIL.EN`: `Ok(elapsed, polls)`, `elapsed` in microseconds. -/
  | enabled (elapsed : BitVec 32) (polls : BitVec 9)
  /-- A 1-bit result: `RAIL.ISEN`, `RAIL.STAT`, `FLT.PG`, and the host's read of `caps.valid` (R11: 1 is true). -/
  | bit (b : Bool)
  /-- A signed 32-bit result: `VCOM.DEC`, `VCOM.DECUV`, `VCOM.RDMV`, `VCOM.RDUV` (log entry 21). -/
  | int (v : Int)
  /-- `VCOM.ENC`. -/
  | pair (low high : Byte)
  /-- `FLT.STATE`. -/
  | index (idx : BitVec 7)
  /-- An operation ended with an error (R240). -/
  | error (e : Error)
deriving DecidableEq, Repr

/-! ### The event sink (spec/10_state.md R28, spec/41_pen_report.md R140) -/

/-- The names of the fields the sink sees, in R140's order. -/
inductive SinkField where
  | touch
  | eraser
  | stylusButton1
  | stylusButton2
  | inProximity
  | toolKind
  | x
  | y
  | pressure
  | distance
  | tiltX
  | tiltY
deriving DecidableEq, Repr

/-- The value of a field update. -/
inductive FieldValue where
  | flag (b : Bool)
  | kind (k : ToolKind)
  | axis (v : Int)
deriving DecidableEq, Repr

/-- An event on the sink (R28). -/
inductive SinkEvent where
  | field (name : SinkField) (value : FieldValue)
  | commit
deriving DecidableEq, Repr

/-! ### The trace of port primitives (spec/00_scope.md R12, spec/70_reset_and_hazards.md R302) -/

/-- One message of a `BusTransfer` (R12): the bytes written, or the count to read. -/
inductive BusMsg where
  | write (addr : BitVec 7) (data : List Byte)
  | read (addr : BitVec 7) (len : Nat)
deriving DecidableEq, Repr

/-- A port primitive of `DIG` with its answer. -/
inductive DigPort where
  | resetPulse
  | busTransfer (msgs : List BusMsg) (a : TransferAnswer)
  | busRecv (addr : BitVec 7) (len : Nat) (a : RecvAnswer)
deriving DecidableEq, Repr

/-- A port primitive of `PWR` with its answer; durations in microseconds. -/
inductive PwrPort where
  | railWrite (on : Bool) (a : WriteAnswer)
  | railQuery (a : BitAnswer)
  | gpioRead (a : LineAnswer)
  | sleep (lo hi d : Nat)
  | regRead (r : ChipReg) (a : ByteAnswer)
  | regWrite (r : ChipReg) (v : Byte) (a : WriteAnswer)
deriving DecidableEq, Repr

/-! ### Where an operation in flight stands (spec/00_scope.md R9)

The phase of an agent is its next micro-step: one interaction with the environment or one internal update. The tests
of the pseudocode stand between micro-steps: they pick the next one. -/

/-- The next micro-step of `DIG`, with the values the operation has computed so far. -/
inductive DigPhase where
  /-- No operation in flight. -/
  | idle
  /-- `QRY.XFER`: the reset pulse (R113). -/
  | qryPulse
  /-- `QRY.XFER`: the transfer (R114). -/
  | qryTransfer
  /-- `QRY.XFER`: the latch of the decoded limits (R116). -/
  | qryLatch (rx : QueryBuf)
  /-- `PEN.IRQ`: the report read (R132). -/
  | penRecv
  /-- `PEN.IRQ`: the update of `tool` by the decoded report (R131). -/
  | penDecode (raw : ReportBuf)
  /-- `PEN.IRQ`: the emission of one event, and the events still to emit after it (R140). -/
  | penEmit (e : SinkEvent) (rest : List SinkEvent)
  /-- `IRQ.EN`, `IRQ.DIS`: the write of `irq_en` (R146, R147). -/
  | irqGate (on : Bool)
  /-- Any operation: `dig_busy <- 0`, its last micro-step, with its result, if any, for the host (R33). -/
  | ret (r : Option Result)
deriving DecidableEq, Repr

/-- The next micro-step of `PWR`. `t` is the sum of the poll sleeps so far, `g` the power-good value just read
(R161). -/
inductive PwrPhase where
  /-- No operation in flight. -/
  | idle
  /-- `RAIL.EN`: the enable write (R162). -/
  | enWrite
  /-- `RAIL.EN`: `rail <- Enabling`. -/
  | enRail
  /-- `RAIL.EN`: `iter <- 0`. -/
  | enIter
  /-- `RAIL.EN`: one power-good read (R163). -/
  | enPoll (t : Nat)
  /-- `RAIL.EN`: `iter <- iter + 1`. -/
  | enCount (t : Nat) (g : Bool)
  /-- `RAIL.EN`: `pg_last <- g`. -/
  | enKeep (t : Nat) (g : Bool)
  /-- `RAIL.EN`: the sleep after a read of 0 (R163). -/
  | enSleep (t : Nat)
  /-- `RAIL.EN`: `rail <- Enabled` on success (R165). -/
  | enGood (t : Nat)
  /-- `RAIL.EN`: the draw of `elapsed` on success (R169). -/
  | enReport (t : Nat)
  /-- `RAIL.EN`: `rail <- Enabled` after a failing power-good read (R164). -/
  | enAbort (e : ErrVal)
  /-- `RAIL.EN`: `rail <- Failed` once the loop is exhausted (R166). -/
  | enFail (t : Nat)
  /-- `RAIL.EN`: the forced disable's write (R166). -/
  | forcedWrite (t : Nat)
  /-- `RAIL.EN`: the forced disable's sleep (R166). -/
  | forcedSleep (t : Nat)
  /-- `RAIL.EN`: `rail <- Disabled` after the forced disable (R166). -/
  | forcedRail (t : Nat)
  /-- `RAIL.EN`: the draw of `elapsed` on the timeout (R167). -/
  | enTimeout (t : Nat)
  /-- `RAIL.DIS` step 1 (R170). -/
  | disWrite
  /-- `RAIL.DIS` step 2, the ramp-down sleep, and the write's answer (R171). -/
  | disSleep (w : WriteAnswer)
  /-- `RAIL.DIS`: `rail <- Disabled` (R172). -/
  | disRail
  /-- `RAIL.ISEN` (R175). -/
  | isenQuery
  /-- `RAIL.STAT`: `iter <- 0` (R177). -/
  | statInit
  /-- `RAIL.STAT`: one power-good read. -/
  | statPoll
  /-- `RAIL.STAT`: `iter <- iter + 1`. -/
  | statCount (g : Bool)
  /-- `RAIL.STAT`: `pg_last <- g`. -/
  | statKeep (g : Bool)
  /-- `RAIL.STAT`: the sleep after a read of 0. -/
  | statSleep
  /-- `VCOM.RDMV`: the low read (R205). -/
  | rdmvLow
  /-- `VCOM.RDMV`: the high read. -/
  | rdmvHigh (low : Byte)
  /-- `VCOM.RDUV`: the low read (R206). -/
  | rduvLow
  /-- `VCOM.RDUV`: the high read. -/
  | rduvHigh (low : Byte)
  /-- `VCOM.WRMV`: the low write (R207). -/
  | wrmvLow (low high : Byte)
  /-- `VCOM.WRMV`: the high write. -/
  | wrmvHigh (high : Byte)
  /-- `FLT.STATE`: the read (R231). -/
  | fltStateRead
  /-- `FLT.PG`: the read (R232). -/
  | fltPgRead
  /-- Any operation: `pwr_busy <- 0`, its last micro-step, with its result for the host (R160). -/
  | ret (r : Result)
deriving DecidableEq, Repr

/-! ### The environment's answers -/

/-- MODEL'S OWN. What a port answers next: the script first, then the free draws of `Config`, of which
`used` have been taken (spec/00_scope.md R13; log entry 3). -/
structure Oracle (α : Type) where
  script : List α
  used : Nat
deriving DecidableEq, Repr

/-! ### The two halves -/

/-- CapabilityLimits latch (spec/10_state.md R22): the fields are unspecified while `valid` is false. -/
structure Caps where
  valid : Bool
  limits : Limits
deriving DecidableEq, Repr

/-- The digitizer side (spec/10_state.md R20, R21). -/
structure Dig where
  /-- `caps` (R22). -/
  caps : Caps
  /-- `tool` (R24). -/
  tool : ToolState
  /-- `irq_en` (R26). -/
  irqEn : Bool
  /-- `irq_pend` (R27). -/
  irqPend : Bool
  /-- A held edge that becomes pending at the next `IRQ.EN` (spec/60_exceptions.md R247; log entry 11). -/
  irqHeld : Bool
  /-- `sink` (R28), oldest event first. -/
  sink : List SinkEvent
  /-- `dig_busy` (R33). -/
  busy : Bool
  /-- The micro-step that comes next (spec/00_scope.md R9). -/
  phase : DigPhase
  /-- MODEL'S OWN: answers of `BusTransfer`. -/
  transfers : Oracle TransferAnswer
  /-- MODEL'S OWN: answers of `BusRecv`. -/
  reportReads : Oracle RecvAnswer
  /-- MODEL'S OWN: how many resets have left unspecified values behind (log entry 7). -/
  unspec : Nat
  /-- The port primitives so far but `Emit`, oldest first (spec/70_reset_and_hazards.md R302; log entries 17
  and 31). -/
  trace : List DigPort
deriving DecidableEq, Repr

/-- The power chip's elements (spec/10_state.md R34 to R37). -/
structure Chip where
  /-- `chip.vcom_l` (R34). -/
  vcomL : Byte
  /-- `chip.vcom_h` (R35). -/
  vcomH : Byte
  /-- `chip.rail_on` (R36). -/
  railOn : Bool
  /-- `chip.fault` (R37), the value of the last read or of the last move `faultReg`. -/
  fault : Byte
deriving DecidableEq, Repr

/-- RailState (spec/10_state.md R29). -/
inductive RailState where
  | disabled
  | enabling
  | enabled
  | failed
deriving DecidableEq, Repr

/-- The power side (spec/10_state.md R20, R21). -/
structure Pwr where
  /-- `rail` (R29). -/
  rail : RailState
  /-- `iter` (R31). -/
  iter : BitVec 9
  /-- `pg_last` (R32). -/
  pgLast : Bool
  /-- `pwr_busy` (R33). -/
  busy : Bool
  /-- `chip.*` (R34 to R37). -/
  chip : Chip
  /-- `pgood` (R38), the level at the last read or of the last move `line`. -/
  pgood : Bool
  /-- The micro-step that comes next (spec/00_scope.md R9). -/
  phase : PwrPhase
  /-- MODEL'S OWN: answers of `RailWrite`. -/
  railWrites : Oracle WriteAnswer
  /-- MODEL'S OWN: answers of `RailQuery`. -/
  railQueries : Oracle ReadAnswer
  /-- MODEL'S OWN: answers of `GpioRead`. -/
  lineReads : Oracle LineAnswer
  /-- MODEL'S OWN: by how much a `Sleep` exceeds its lower bound, cut at its upper one. -/
  sleeps : Oracle Nat
  /-- MODEL'S OWN: answers of `RegRead` of a VCOM register. -/
  vcomReads : Oracle ReadAnswer
  /-- MODEL'S OWN: answers of `RegRead(REG_FAULT)`. -/
  faultReads : Oracle ByteAnswer
  /-- MODEL'S OWN: answers of `RegWrite`. -/
  vcomWrites : Oracle WriteAnswer
  /-- MODEL'S OWN: by how much `elapsed` exceeds the sum of the poll sleeps (R167). -/
  overheads : Oracle Nat
  /-- The port primitives so far, oldest first (spec/70_reset_and_hazards.md R302). -/
  trace : List PwrPort
deriving DecidableEq, Repr

/-! ### What the outside does next -/

/-- The two agents of the block that execute micro-steps (spec/00_scope.md R10). -/
inductive Agent where
  | dig
  | pwr
deriving DecidableEq, Repr

/-- What becomes of an edge that cannot be recorded at once (spec/60_exceptions.md R247). -/
inductive EdgeDraw where
  | held
  | lost
deriving DecidableEq, Repr

/-- MODEL'S OWN. One move of the host or the environment (spec/30_encoding.md R101, spec/00_scope.md R10; log
entry 8). -/
inductive Move where
  /-- The host issues a command; it runs to its end in one step. -/
  | command (code : Byte) (operands : List Byte)
  /-- The host issues a command; the operation starts and stays in flight. -/
  | launch (code : Byte) (operands : List Byte)
  /-- One micro-step of an agent. -/
  | advance (a : Agent)
  /-- A pending edge is served; the service runs to its end in one step. -/
  | service
  /-- A pending edge is served; the service starts and stays in flight. -/
  | launchService
  /-- ENV raises an interrupt edge. -/
  | edge (draw : EdgeDraw)
  /-- ENV sets the power-good line. -/
  | line (b : Bool)
  /-- The chip changes its fault register. -/
  | faultReg (v : Byte)
  /-- The host reads the eight limits of `caps` together (spec/10_state.md R22; log entry 32). -/
  | readCaps
  /-- The host reads `caps.valid` (spec/10_state.md R22; log entry 32). -/
  | readCapsValid
deriving DecidableEq, Repr

/-- The whole machine. -/
structure State where
  /-- The `DIG` half (R21). -/
  dig : Dig
  /-- The `PWR` half (R21). -/
  pwr : Pwr
  /-- MODEL'S OWN: the moves not yet made, the next one first (log entry 8). -/
  inbox : List Move
  /-- The results returned to the host, oldest first (spec/70_reset_and_hazards.md R302; log entry 17). -/
  results : List Result
deriving DecidableEq, Repr

/-- Faults. -/
inductive Fault where
  /-- Raised by the host's read of the limits in `caps` while `caps.valid = 0` (spec/10_state.md R22: "a model makes such a
  read a fault"). Safe: no value is read. -/
  | capsUnspecified
deriving DecidableEq, Repr

/-- Refusals. -/
inductive Refusal where
  /-- Raised by an arm of `exec` whose operation has no meaning yet; no arm does. Safe. -/
  | notModelled (mnemonic : String)
  /-- Raised by a step on a command of R95's table whose operands are not all there; no rule describes such a
  command (log entry 2). Safe: nothing is executed. -/
  | incompleteCommand (code : Byte)
deriving DecidableEq, Repr

/-! ### Reset (spec/10_state.md R40, spec/70_reset_and_hazards.md R280) -/

/-- MODEL'S OWN: no scripted answer, no free draw taken. -/
def Oracle.fresh {α : Type} : Oracle α := { script := [], used := 0 }

/-- DESIGN CHOICE (log entry 5, unsafe): the `caps` fields at power-on, unspecified in R22. -/
def zeroLimits : Limits :=
  { xMax := 0, yMax := 0, pressureMax := 0, fwVersion := 0, distanceMax := 0, distancePhysicalMax := 0,
    tiltXMax := 0, tiltYMax := 0 }

/-- The digitizer side at power-on (R40). `tool.kind` is a DESIGN CHOICE (log entry 4, unsafe). -/
def Dig.reset : Dig :=
  { caps := { valid := false, limits := zeroLimits }
    tool := { prox := false, kind := .pen }
    irqEn := false
    irqPend := false
    irqHeld := false
    sink := []
    busy := false
    phase := .idle
    transfers := Oracle.fresh
    reportReads := Oracle.fresh
    unspec := 0
    trace := [] }

/-- The power side at power-on (R40). `chip.*` and `pgood` are DESIGN CHOICES (log entry 6, unsafe). -/
def Pwr.reset : Pwr :=
  { rail := .disabled
    iter := 0
    pgLast := false
    busy := false
    chip := { vcomL := 0, vcomH := 0, railOn := false, fault := 0 }
    pgood := false
    phase := .idle
    railWrites := Oracle.fresh
    railQueries := Oracle.fresh
    lineReads := Oracle.fresh
    sleeps := Oracle.fresh
    vcomReads := Oracle.fresh
    faultReads := Oracle.fresh
    vcomWrites := Oracle.fresh
    overheads := Oracle.fresh
    trace := [] }

/-- The machine right after power-on (R40): nothing issued, nothing returned. -/
def State.reset : State :=
  { dig := Dig.reset, pwr := Pwr.reset, inbox := [], results := [] }

end Sys2Proof.Machine
end

