-- ==== Sys2Proof/Machine/Ops.lean ====
section
/-! DEFINITION. The named operations over the state: what a port answers, the port primitives of
spec/00_scope.md R12, and how an operation ends, with a result or with an error (spec/60_exceptions.md R255). -/

namespace Sys2Proof.Machine

/-! ### A port's next answer (R13; log entry 3) -/

/-- The next answer, and the port after it has been given. -/
def Oracle.next {α : Type} (free : Nat → α) (o : Oracle α) : α × Oracle α :=
  match o.script with
  | a :: rest => (a, { o with script := rest })
  | [] => (free o.used, { o with used := o.used + 1 })

/-- The answer that comes after `k` others. -/
def Oracle.nth {α : Type} (free : Nat → α) (o : Oracle α) (k : Nat) : α :=
  match o.script[k]? with
  | some a => a
  | none => free (o.used + (k - o.script.length))

/-! ### Port primitives of `DIG` (R12) -/

/-- `ResetPulse()`: answers `ok`, which is ignored (spec/40_query_report.md R113). -/
def Dig.resetPulse (d : Dig) : Dig :=
  { d with trace := d.trace ++ [.resetPulse] }

/-- `BusTransfer(msgs)`, one call (spec/20_memory.md R58). -/
def Dig.busTransfer (msgs : List BusMsg) (d : Dig) : TransferAnswer × Dig :=
  let r := d.transfers.next Config.freeTransfer
  (r.1, { d with transfers := r.2, trace := d.trace ++ [.busTransfer msgs r.1] })

/-- `BusRecv(DIGITIZER_ADDR, 22)`, one blocking transfer (spec/20_memory.md R57). -/
def Dig.busRecv (d : Dig) : RecvAnswer × Dig :=
  let r := d.reportReads.next Config.freeRecv
  (r.1, { d with
    reportReads := r.2
    trace := d.trace ++ [.busRecv Config.digitizerAddr Config.penLen r.1] })

/-- `Emit(e)`: append to `sink` (R12). The event stands in `sink` only, not on the trace (DESIGN CHOICE, log
entry 31). -/
def Dig.emit (e : SinkEvent) (d : Dig) : Dig :=
  { d with sink := d.sink ++ [e] }

/-! ### Port primitives of `PWR` (R12) -/

/-- What a write leaves in its target: the new value, or after a failed write the old or the new one
(spec/60_exceptions.md R255). -/
def writeLeaves {α : Type} (a : WriteAnswer) (old new : α) : α :=
  match a with
  | .ok => new
  | .err _ took => if took then new else old

/-- `RailWrite(on)` (spec/10_state.md R36). -/
def Pwr.railWrite (on : Bool) (p : Pwr) : WriteAnswer × Pwr :=
  let r := p.railWrites.next Config.freeRailWrite
  (r.1, { p with
    railWrites := r.2
    chip := { p.chip with railOn := writeLeaves r.1 p.chip.railOn on }
    trace := p.trace ++ [.railWrite on r.1] })

/-- What a `RailQuery` answers while `chip.rail_on` is `on` (spec/10_state.md R36). -/
def storedBit (a : ReadAnswer) (on : Bool) : BitAnswer :=
  match a with
  | .ok => .ok on
  | .err e => .err e

/-- `RailQuery()`: whether it succeeds; the value of a successful one is `chip.rail_on` (R36). -/
def Pwr.railQuery (p : Pwr) : ReadAnswer × Pwr :=
  let r := p.railQueries.next Config.freeRailQuery
  (r.1, { p with
    railQueries := r.2
    trace := p.trace ++ [.railQuery (storedBit r.1 p.chip.railOn)] })

/-- The level of the power-good line after a `GpioRead` answered: an error says nothing of it. -/
def lineAfter (a : LineAnswer) (old : Bool) : Bool :=
  match a with
  | .level b => b
  | .err _ => old

/-- `GpioRead()` (spec/10_state.md R38): each read a fresh draw of the line (log entry 20). -/
def Pwr.gpioRead (p : Pwr) : LineAnswer × Pwr :=
  let r := p.lineReads.next Config.freeLine
  (r.1, { p with
    lineReads := r.2
    pgood := lineAfter r.1 p.pgood
    trace := p.trace ++ [.gpioRead r.1] })

/-- The duration of `Sleep(lo, hi)` (spec/70_reset_and_hazards.md R300): every `d` with `lo ≤ d ≤ hi` is
drawn by some overrun (log entry 12). -/
def sleepTime (lo hi overrun : Nat) : Nat :=
  lo + min overrun (hi - lo)

/-- `Sleep(lo, hi)` (R12). -/
def Pwr.sleep (lo hi : Nat) (p : Pwr) : Nat × Pwr :=
  let r := p.sleeps.next Config.freeSleep
  let d := sleepTime lo hi r.1
  (d, { p with sleeps := r.2, trace := p.trace ++ [.sleep lo hi d] })

/-- What a `RegRead` of a stored register answers. -/
def storedAnswer (a : ReadAnswer) (v : Byte) : ByteAnswer :=
  match a with
  | .ok => .ok v
  | .err e => .err e

/-- `RegRead` of a register that is plain storage holding `v` (spec/43_vcom_codec.md R208; log entry 15). -/
def Pwr.readStored (reg : ChipReg) (v : Byte) (p : Pwr) : ByteAnswer × Pwr :=
  let r := p.vcomReads.next Config.freeVcomRead
  (storedAnswer r.1 v, { p with vcomReads := r.2, trace := p.trace ++ [.regRead reg (storedAnswer r.1 v)] })

/-- `RegRead(REG_VCOM_L)` (spec/10_state.md R34). -/
def Pwr.readVcomL (p : Pwr) : ByteAnswer × Pwr := p.readStored .vcomL p.chip.vcomL

/-- `RegRead(REG_VCOM_H)` (spec/10_state.md R35). -/
def Pwr.readVcomH (p : Pwr) : ByteAnswer × Pwr := p.readStored .vcomH p.chip.vcomH

/-- The fault register after a read answered. -/
def faultAfter (a : ByteAnswer) (old : Byte) : Byte :=
  match a with
  | .ok v => v
  | .err _ => old

/-- `RegRead(REG_FAULT)`: a fresh draw at every read (spec/20_memory.md R60; log entry 20). -/
def Pwr.readFault (p : Pwr) : ByteAnswer × Pwr :=
  let r := p.faultReads.next Config.freeFaultRead
  (r.1, { p with
    faultReads := r.2
    chip := { p.chip with fault := faultAfter r.1 p.chip.fault }
    trace := p.trace ++ [.regRead .fault r.1] })

/-- `RegWrite(REG_VCOM_L, v)`, a whole byte (spec/43_vcom_codec.md R207). -/
def Pwr.writeVcomL (v : Byte) (p : Pwr) : WriteAnswer × Pwr :=
  let r := p.vcomWrites.next Config.freeVcomWrite
  (r.1, { p with
    vcomWrites := r.2
    chip := { p.chip with vcomL := writeLeaves r.1 p.chip.vcomL v }
    trace := p.trace ++ [.regWrite .vcomL v r.1] })

/-- `RegWrite(REG_VCOM_H, v)`, a whole byte (R207). -/
def Pwr.writeVcomH (v : Byte) (p : Pwr) : WriteAnswer × Pwr :=
  let r := p.vcomWrites.next Config.freeVcomWrite
  (r.1, { p with
    vcomWrites := r.2
    chip := { p.chip with vcomH := writeLeaves r.1 p.chip.vcomH v }
    trace := p.trace ++ [.regWrite .vcomH v r.1] })

/-- `elapsed` for poll sleeps that sum to `t`: a draw not below `t`, held in 32 bits
(spec/42_power_rail_sequencer.md R167, spec/00_scope.md R14; log entry 13). -/
def elapsedTime (t overhead : Nat) : BitVec 32 :=
  BitVec.ofNat 32 (t + min overhead (2 ^ 32 - 1 - t))

/-- The `elapsed` diagnostic at the exit of the poll loop. -/
def Pwr.elapsed (t : Nat) (p : Pwr) : BitVec 32 × Pwr :=
  let r := p.overheads.next Config.freeOverhead
  (elapsedTime t r.1, { p with overheads := r.2 })

/-! ### How an operation goes on and ends (spec/60_exceptions.md R255, spec/10_state.md R33)

`Dig.raise` and `Pwr.raise` are the block's one way of taking an error: the operation goes to its last micro-step with
the error as its result, what it has written stays written, nothing is saved and control goes nowhere. There is no
return from an error (R256): the next operation is accepted at once. -/

/-- A `DIG` operation goes on with this micro-step. -/
def Dig.goto (ph : DigPhase) (d : Dig) : Dig :=
  { d with phase := ph }

/-- `return` in a `DIG` operation: its last micro-step comes next, with the result, if there is one. -/
def Dig.complete (r : Option Result) (d : Dig) : Dig :=
  d.goto (.ret r)

/-- `raise E` in a `DIG` operation. -/
def Dig.raise (e : Error) (d : Dig) : Dig :=
  d.complete (some (.error e))

/-- The last micro-step of a `DIG` operation: `dig_busy <- 0`, and the result, if there is one, goes to the host. -/
def Dig.leave (r : Option Result) (d : Dig) : Dig × Option Result :=
  ({ d with phase := .idle, busy := false }, r)

/-- A `PWR` operation goes on with this micro-step. -/
def Pwr.goto (ph : PwrPhase) (p : Pwr) : Pwr :=
  { p with phase := ph }

/-- `return` in a `PWR` operation: its last micro-step comes next, with the result. -/
def Pwr.complete (r : Result) (p : Pwr) : Pwr :=
  p.goto (.ret r)

/-- `raise E` in a `PWR` operation. -/
def Pwr.raise (e : Error) (p : Pwr) : Pwr :=
  p.complete (.error e)

/-- The last micro-step of a `PWR` operation: `pwr_busy <- 0`, and the result goes to the host. -/
def Pwr.leave (r : Result) (p : Pwr) : Pwr × Option Result :=
  ({ p with phase := .idle, busy := false }, some r)

/-- A result goes to the host (spec/70_reset_and_hazards.md R302). -/
def State.reply (r : Result) (s : State) : State :=
  { s with results := s.results ++ [r] }

/-- The 2-bit encoding of RailState (spec/10_state.md R29). -/
def RailState.code (r : RailState) : BitVec 2 :=
  match r with
  | .disabled => 0
  | .enabling => 1
  | .enabled => 2
  | .failed => 3

/-- The error number of R240; `Ok` is 0. -/
def Error.number (e : Error) : Nat :=
  match e with
  | .transport _ => 1
  | .protocol => 2
  | .range => 3
  | .timeout _ => 4
  | .gpioRead _ => 5
  | .resourceAcquisition => 6
  | .deviceRead _ => 7
  | .statusIndex _ => 8
  | .sequence => 9
  | .illegalCommand => 10

end Sys2Proof.Machine
end

