-- ==== Sys2Proof/Machine/Operands.lean ====
section
/-! DEFINITION. How each field of a report or a register becomes a value (spec/30_encoding.md R88): bytes,
little-endian 16-bit fields, the sign of a 16-bit field, the 9-bit VCOM field, the fields of the fault
register. -/

namespace Sys2Proof.Machine

/-- `buf[o]`, the `u8` at offset `o`. -/
def u8 {n : Nat} (buf : Vector Byte n) (o : Nat) (h : o < n := by decide) : Byte :=
  buf[o]

/-- `buf[o] OR (buf[o+1] << 8)`, the little-endian `u16` at offset `o` (spec/20_memory.md R51), assembled
byte by byte (R54). -/
def le16 {n : Nat} (buf : Vector Byte n) (o : Nat) (h : o + 1 < n := by decide) : Half :=
  (buf[o]).setWidth 16 ||| ((buf[o + 1]).setWidth 16 <<< 8)

/-- `sext_N` of a 16-bit value (spec/00_scope.md R12, R89; two's complement, log entry 25). -/
def sext (v : Half) : Int :=
  if v.toNat < 0x8000 then (v.toNat : Int) else (v.toNat : Int) - 0x10000

/-- The `s16` at offset `o`. -/
def s16 {n : Nat} (buf : Vector Byte n) (o : Nat) (h : o + 1 < n := by decide) : Int :=
  sext (le16 buf o h)

/-- The two bytes of a `u16`, the less significant first (R51). -/
def le16Bytes (v : Half) : List Byte :=
  [v.setWidth 8, (v >>> 8).setWidth 8]

/-- `(v AND mask) != 0`. -/
def bitSet (v mask : Byte) : Bool :=
  v &&& mask != 0

/-- The 9-bit raw field `(low OR (high << 8)) AND 0x1FF` (spec/20_memory.md R52, spec/30_encoding.md R85). -/
def vcomRaw (low high : Byte) : Half :=
  (low.setWidth 16 ||| (high.setWidth 16 <<< 8)) &&& Config.vcomMask

/-- `raw AND 0xFF` (spec/43_vcom_codec.md R202). -/
def vcomLow (raw : Half) : Byte :=
  (raw &&& 0xFF).setWidth 8

/-- `(raw >> 8) AND 0x1` (R202). -/
def vcomHigh (raw : Half) : Byte :=
  ((raw >>> 8) &&& 0x1).setWidth 8

/-- `value >> 1` over all seven upper bits of the fault register (spec/30_encoding.md R86). -/
def faultIndex (v : Byte) : BitVec 7 :=
  (v >>> 1).setWidth 7

end Sys2Proof.Machine
end

