-- ==== Sys2Proof/Machine/Flags.lean ====
section
/-! DEFINITION. The bits of the pen status byte (spec/30_encoding.md R83, spec/41_pen_report.md R134), the
tool-kind latch (R138), and the two status bits of the fault register (spec/44_fault_status.md). -/

namespace Sys2Proof.Machine

/-- `touch`, status bit 0. -/
def statusTouch (status : Byte) : Bool := bitSet status 0x01
/-- `stylus_button_1`, status bit 1. -/
def statusButton1 (status : Byte) : Bool := bitSet status 0x02
/-- `eraser`, status bit 2. -/
def statusEraser (status : Byte) : Bool := bitSet status 0x04
/-- `stylus_button_2`, status bit 4. -/
def statusButton2 (status : Byte) : Bool := bitSet status 0x10
/-- `in_proximity`, status bit 5. -/
def statusProximity (status : Byte) : Bool := bitSet status 0x20

/-- The discriminator's verdict: bits 3:2 nonzero is Rubber (R83). -/
def discriminator (status : Byte) : ToolKind :=
  if bitSet status 0x0C then .rubber else .pen

/-- The tool-kind latch rule (R138): recomputed exactly when the previous proximity flag was false. -/
def latchKind (ts : ToolState) (status : Byte) : ToolKind :=
  if ts.prox then ts.kind else discriminator status

/-- The next ToolState (R138): the current proximity bit and the latched kind. -/
def latchTool (ts : ToolState) (status : Byte) : ToolState :=
  { prox := statusProximity status, kind := latchKind ts status }

/-- `flt_pg(v)`: bit 0 of the fault register (R232). -/
def fltPgBit (v : Byte) : Bool := bitSet v 0x01

end Sys2Proof.Machine
end

