-- ==== Sys2Proof/Machine/Codec.lean ====
section
/-! DEFINITION. The pure operations: the two report decodes, the VCOM codec, the fault decode
(spec/30_encoding.md R96: functions of their operands, no state, no port), and the pseudo-operations of R102. -/

namespace Sys2Proof.Machine

/-! ### The reports -/

/-- `QRY.DEC` (spec/40_query_report.md R111). -/
def qryDecode (q : QueryBuf) : Limits :=
  { xMax := le16 q 3
    yMax := le16 q 5
    pressureMax := le16 q 11
    fwVersion := le16 q 13
    distanceMax := u8 q 15
    distancePhysicalMax := u8 q 16
    tiltXMax := le16 q 17
    tiltYMax := le16 q 19 }

/-- The test-only encoder `qry_encode(lim, fill)` (R119); no operation of the block. -/
def qryEncode (lim : Limits) (fill : Vector Byte 7) : QueryBuf :=
  #v[fill[0], fill[1], fill[2],
     lim.xMax.setWidth 8, (lim.xMax >>> 8).setWidth 8,
     lim.yMax.setWidth 8, (lim.yMax >>> 8).setWidth 8,
     fill[3], fill[4], fill[5], fill[6],
     lim.pressureMax.setWidth 8, (lim.pressureMax >>> 8).setWidth 8,
     lim.fwVersion.setWidth 8, (lim.fwVersion >>> 8).setWidth 8,
     lim.distanceMax,
     lim.distancePhysicalMax,
     lim.tiltXMax.setWidth 8, (lim.tiltXMax >>> 8).setWidth 8,
     lim.tiltYMax.setWidth 8, (lim.tiltYMax >>> 8).setWidth 8]

/-- The sample of a pen report (spec/41_pen_report.md R130, R134 to R138). -/
def penSample (raw : ReportBuf) (ts : ToolState) : PenSample :=
  let status := u8 raw 3
  { touch := statusTouch status
    eraser := statusEraser status
    stylusButton1 := statusButton1 status
    stylusButton2 := statusButton2 status
    inProximity := statusProximity status
    toolKind := latchKind ts status
    x := le16 raw 4
    y := le16 raw 6
    pressure := le16 raw 8
    distance := u8 raw 10
    tiltX := s16 raw 11
    tiltY := s16 raw 13 }

/-- `PEN.DEC` (R130): the sample and the next ToolState. -/
def penDecode (raw : ReportBuf) (ts : ToolState) : PenSample × ToolState :=
  (penSample raw ts, latchTool ts (u8 raw 3))

/-- The batch of one sample (R140): twelve fields in the attribute order, then one Commit. -/
def sampleEvents (s : PenSample) : List SinkEvent :=
  [.field .touch (.flag s.touch),
   .field .eraser (.flag s.eraser),
   .field .stylusButton1 (.flag s.stylusButton1),
   .field .stylusButton2 (.flag s.stylusButton2),
   .field .inProximity (.flag s.inProximity),
   .field .toolKind (.kind s.toolKind),
   .field .x (.axis s.x.toNat),
   .field .y (.axis s.y.toNat),
   .field .pressure (.axis s.pressure.toNat),
   .field .distance (.axis s.distance.toNat),
   .field .tiltX (.axis s.tiltX),
   .field .tiltY (.axis s.tiltY),
   .commit]

/-- What the consumer of the sink sees: the events up to the last Commit (spec/10_state.md R28). -/
def sinkVisible (sink : List SinkEvent) : List SinkEvent :=
  (sink.reverse.dropWhile (fun e => e != .commit)).reverse

/-! ### The VCOM codec -/

/-- `VCOM.DEC` (spec/43_vcom_codec.md R200): millivolts. -/
def vcomDecode (low high : Byte) : Int :=
  ((vcomRaw low high).toNat : Int) * Config.vcomStepMv

/-- `VCOM.DECUV` (R201): microvolts, from the raw field itself. -/
def vcomDecodeUv (low high : Byte) : Int :=
  ((vcomRaw low high).toNat : Int) * Config.vcomStepUv

/-- `(m / 10) AND 0x1FF`, the raw field of a magnitude (R202); the division truncates. -/
def vcomRawOf (m : Int) : Half :=
  BitVec.ofNat 16 (m.tdiv Config.vcomStepMv).toNat &&& Config.vcomMask

/-- `VCOM.ENC` (R202): the two bytes, or none where the operation raises RangeError. -/
def vcomEncode (m : Int) : Option (Byte × Byte) :=
  if m < 0 ∨ Config.vcomMaxMv < m then none
  else some (vcomLow (vcomRawOf m), vcomHigh (vcomRawOf m))

/-- Pseudo-operation `VCOM.DECS` (R102, R204): the negated magnitude. -/
def vcomDecodeSigned (low high : Byte) : Int :=
  -vcomDecode low high

/-- Pseudo-operation `VCOM.ENCS` (R102): accepts -5000 to 0 and negates before encoding. -/
def vcomEncodeSigned (v : Int) : Option (Byte × Byte) :=
  if 0 < v ∨ v < -Config.vcomMaxMv then none else vcomEncode (-v)

/-- The result of `VCOM.ENC` as the host sees it. -/
def pairOrRange (r : Option (Byte × Byte)) : Result :=
  match r with
  | some (low, high) => .pair low high
  | none => .error .range

/-! ### The fault register -/

/-- `flt_state(v)` (spec/44_fault_status.md R231). -/
def fltStateOf (v : Byte) : Result :=
  if 16 ≤ (faultIndex v).toNat then .error (.statusIndex (faultIndex v)) else .index (faultIndex v)

/-- The state text of an index in range (R231, R233). -/
def stateText (idx : BitVec 7) : Option String :=
  if h : idx.toNat < 16 then some (Config.stateString ⟨idx.toNat, h⟩) else none

end Sys2Proof.Machine
end

