-- ==== Sys2Proof/Machine/DigUnit.lean ====
section
/-! DEFINITION. The micro-steps of the digitizer side (spec/00_scope.md R9): one interaction with the
environment or one update of its own state each, in the order of the pseudocode (spec/20_memory.md R64), and
the run of an operation in flight to its end. Each handler answers the half after its micro-step, with the next one in
`phase`. -/

namespace Sys2Proof.Machine

/-! ### `QRY.XFER` (spec/40_query_report.md R112) -/

/-- The first micro-step after `dig_busy <- 1`: the end, with SequenceError, while the latch is full, before any port
is used (R117); else the reset pulse where a reset control is present (R113; log entry 27), else the transfer. -/
def qryFirst (d : Dig) : DigPhase :=
  if d.caps.valid then .ret (some (.error .sequence))
  else if Config.hasReset then .qryPulse
  else .qryTransfer

/-- The reset pre-step (R113). -/
def qryPulse (d : Dig) : Dig :=
  d.resetPulse.goto .qryTransfer

/-- The two messages of the transfer (R114): the command frame, then the read of 21 bytes. -/
def qryMessages : List BusMsg :=
  [.write Config.digitizerAddr Config.qryFrame.toList, .read Config.digitizerAddr Config.qryLen]

/-- The transfer and the classification of its answer (R114, R115). -/
def qryTransfer (d : Dig) : Dig :=
  match d.busTransfer qryMessages with
  | (.err e, d) => d.raise (.transport e)
  | (.short _, d) => d.raise .protocol
  | (.full rx, d) => d.goto (.qryLatch rx)

/-- The latch: one update of `caps`, all eight fields and `caps.valid` together (R116, spec/10_state.md R22: "all
fields at once"); the result equals it. -/
def qryLatch (rx : QueryBuf) (d : Dig) : Dig :=
  Dig.complete (some (.limits (qryDecode rx))) { d with caps := { valid := true, limits := qryDecode rx } }

/-! ### `PEN.IRQ` (spec/41_pen_report.md R131) -/

/-- The report read; an error is swallowed and the operation ends with no result (R132, R133). -/
def penRecv (d : Dig) : Dig :=
  match d.busRecv with
  | (.err _, d) => d.complete none
  | (.ok raw, d) => d.goto (.penDecode raw)

/-- What comes next with these events still to emit: the emission of the first one, or the end, which clears
`dig_busy` after the whole batch (R144). -/
def penNext (events : List SinkEvent) : DigPhase :=
  match events with
  | [] => .ret none
  | e :: rest => .penEmit e rest

/-- `tool` becomes the next ToolState, and the sample's batch is to be emitted (R131, R140). -/
def penLatch (raw : ReportBuf) (d : Dig) : Dig :=
  Dig.goto (penNext (sampleEvents (penDecode raw d.tool).1)) { d with tool := (penDecode raw d.tool).2 }

/-- One emission. -/
def penEmit (e : SinkEvent) (rest : List SinkEvent) (d : Dig) : Dig :=
  (d.emit e).goto (penNext rest)

/-! ### `IRQ.EN` and `IRQ.DIS` (spec/41_pen_report.md R146, R147) -/

/-- `irq_en <- 1`; a held edge becomes pending by it, as the environment drew (spec/60_exceptions.md R247; log entry
11). -/
def Dig.openGate (d : Dig) : Dig :=
  { d with irqEn := true, irqPend := d.irqPend || d.irqHeld, irqHeld := false }

/-- `irq_en <- 0` and nothing else (R147). -/
def Dig.closeGate (d : Dig) : Dig :=
  { d with irqEn := false }

/-- The write of `irq_en`; the result is `Ok`. -/
def irqGate (on : Bool) (d : Dig) : Dig :=
  (if on then d.openGate else d.closeGate).complete (some .ok)

/-! ### The agent -/

/-- One micro-step of `DIG`, and the result where it is an operation's last; an idle agent has none. -/
def Dig.micro (d : Dig) : Dig × Option Result :=
  match d.phase with
  | .idle => (d, none)
  | .qryPulse => (qryPulse d, none)
  | .qryTransfer => (qryTransfer d, none)
  | .qryLatch rx => (qryLatch rx d, none)
  | .penRecv => (penRecv d, none)
  | .penDecode raw => (penLatch raw d, none)
  | .penEmit e rest => (penEmit e rest d, none)
  | .irqGate on => (irqGate on d, none)
  | .ret r => d.leave r

/-- At most `fuel` micro-steps, stopping when the operation ends. -/
def Dig.run (fuel : Nat) (d : Dig) : Dig × Option Result :=
  match fuel with
  | 0 => (d, none)
  | k + 1 =>
    if d.phase = .idle then (d, none)
    else
      match d.micro with
      | (d, some r) => (d, some r)
      | (d, none) => Dig.run k d

/-- Enough micro-steps for any operation to end from this phase. -/
def DigPhase.bound (ph : DigPhase) : Nat :=
  match ph with
  | .penEmit _ rest => rest.length + 2
  | _ => 16

/-- The operation in flight runs to its end; every operation ends (spec/20_memory.md R61,
spec/41_pen_report.md R144). -/
def Dig.finish (d : Dig) : Dig × Option Result :=
  Dig.run d.phase.bound d

/-- An operation starts: `dig_busy <- 1`, its first micro-step (spec/10_state.md R33). -/
def Dig.start (ph : DigPhase) (d : Dig) : Dig :=
  { d with busy := true, phase := ph }

end Sys2Proof.Machine
end

