-- ==== Sys2Proof/Machine/PwrUnit.lean ====
section
/-! DEFINITION. The micro-steps of the power side (spec/00_scope.md R9): one interaction with the environment or one
update of its own state each, in the order of the pseudocode (spec/20_memory.md R64), and the run of an operation in
flight to its end. Each handler answers the half after its micro-step, with the next one in `phase`. -/

namespace Sys2Proof.Machine

/-! ### Shared steps of the sequencer (spec/42_power_rail_sequencer.md) -/

/-- The sleep after a power-good read of 0 (R163). -/
def Pwr.pollSleep (p : Pwr) : Nat × Pwr :=
  p.sleep Config.pollSleepMin Config.pollSleepMax

/-- The ramp-down sleep (R171). -/
def Pwr.rampSleep (p : Pwr) : Nat × Pwr :=
  p.sleep Config.rampSleepMin Config.rampSleepMax

/-- `rail <- r` (spec/10_state.md R29). -/
def Pwr.setRail (r : RailState) (p : Pwr) : Pwr :=
  { p with rail := r }

/-- `iter <- i` (spec/10_state.md R31). -/
def Pwr.setIter (i : BitVec 9) (p : Pwr) : Pwr :=
  { p with iter := i }

/-- `pg_last <- g` (spec/10_state.md R32). -/
def Pwr.setPgLast (g : Bool) (p : Pwr) : Pwr :=
  { p with pgLast := g }

/-! ### `RAIL.EN` (R161) -/

/-- Step 1, the enable write (R162). -/
def railEnWrite (p : Pwr) : Pwr :=
  match p.railWrite true with
  | (.err e _, p) => p.raise (.transport e)
  | (.ok, p) => p.goto .enRail

/-- Step 2: one power-good read (R163); an error ends the operation with no roll-back (R164). -/
def railEnPoll (t : Nat) (p : Pwr) : Pwr :=
  match p.gpioRead with
  | (.err e, p) => p.goto (.enAbort e)
  | (.level g, p) => p.goto (.enCount t g)

/-- What follows a counted and kept read: success on 1 (R165), the sleep on 0 (R163). -/
def enRead (t : Nat) (g : Bool) : PwrPhase :=
  if g then .enGood t else .enSleep t

/-- The loop test: the next read while fewer than 500 are done (R163), else the timeout (R166). -/
def Pwr.enNext (t : Nat) (p : Pwr) : PwrPhase :=
  if p.iter.toNat < Config.pollMax then .enPoll t else .enFail t

/-- The sleep after a read of 0, the 500th included (R163), and the loop test. -/
def railEnSleep (t : Nat) (p : Pwr) : Pwr :=
  match p.pollSleep with
  | (d, p) => p.goto (p.enNext (t + d))

/-- The draw of `elapsed` and the result of success (R165, R169). -/
def railEnReport (t : Nat) (p : Pwr) : Pwr :=
  match p.elapsed t with
  | (el, p) => p.complete (.enabled el p.iter)

/-- `RAIL.FDIS` step 1: the forced disable's write; its answer is discarded (R166). -/
def railForcedWrite (t : Nat) (p : Pwr) : Pwr :=
  (p.railWrite false).2.goto (.forcedSleep t)

/-- The draw of `elapsed` and TimeoutError (R167). -/
def railEnTimeout (t : Nat) (p : Pwr) : Pwr :=
  match p.elapsed t with
  | (el, p) => p.raise (.timeout el)

/-! ### `RAIL.DIS` (R170) -/

/-- Step 1, the disable write. -/
def railDisWrite (p : Pwr) : Pwr :=
  match p.railWrite false with
  | (w, p) => p.goto (.disSleep w)

/-- Step 2, the sleep whatever the write answered (R171); then what the write's answer asks for (R172). -/
def railDisSleep (w : WriteAnswer) (p : Pwr) : Pwr :=
  match w with
  | .ok => p.rampSleep.2.goto .disRail
  | .err e _ => p.rampSleep.2.raise (.transport e)

/-! ### `RAIL.ISEN` (R175) and `RAIL.STAT` (R177) -/

/-- The register-state query. -/
def railIsenQuery (p : Pwr) : Pwr :=
  match p.railQuery with
  | (.err e, p) => p.raise (.transport e)
  | (.ok, p) => p.complete (.bit p.chip.railOn)

/-- One power-good read; an error ends the operation at once (R178). -/
def railStatPoll (p : Pwr) : Pwr :=
  match p.gpioRead with
  | (.err e, p) => p.raise (.gpioRead e)
  | (.level g, p) => p.goto (.statCount g)

/-- What follows a counted and kept read: the result 1, or the sleep. -/
def statRead (g : Bool) : PwrPhase :=
  if g then .ret (.bit true) else .statSleep

/-- The loop test: the next read while fewer than 500 are done, else the last value observed is the result. -/
def Pwr.statNext (p : Pwr) : PwrPhase :=
  if p.iter.toNat < Config.pollMax then .statPoll else .ret (.bit p.pgLast)

/-- The sleep after a read of 0, and the loop test. -/
def railStatSleep (p : Pwr) : Pwr :=
  match p.pollSleep with
  | (_, p) => p.goto p.statNext

/-! ### `VCOM.RDMV`, `VCOM.RDUV`, `VCOM.WRMV` (spec/43_vcom_codec.md R205 to R207) -/

/-- The low read of `VCOM.RDMV`; a failing one ends the operation before the second (R205). -/
def vcomRdmvLow (p : Pwr) : Pwr :=
  match p.readVcomL with
  | (.err e, p) => p.raise (.transport e)
  | (.ok low, p) => p.goto (.rdmvHigh low)

/-- The high read of `VCOM.RDMV` and the negated magnitude. -/
def vcomRdmvHigh (low : Byte) (p : Pwr) : Pwr :=
  match p.readVcomH with
  | (.err e, p) => p.raise (.transport e)
  | (.ok high, p) => p.complete (.int (vcomDecodeSigned low high))

/-- The low read of `VCOM.RDUV` (R206). -/
def vcomRduvLow (p : Pwr) : Pwr :=
  match p.readVcomL with
  | (.err e, p) => p.raise (.transport e)
  | (.ok low, p) => p.goto (.rduvHigh low)

/-- The high read of `VCOM.RDUV`; not negated. -/
def vcomRduvHigh (low : Byte) (p : Pwr) : Pwr :=
  match p.readVcomH with
  | (.err e, p) => p.raise (.transport e)
  | (.ok high, p) => p.complete (.int (vcomDecodeUv low high))

/-- The first micro-step of `VCOM.WRMV` after `pwr_busy <- 1`: the end, with RangeError, outside the range, before
any register write; else the low write of the encoding (R207). -/
def wrmvFirst (v : Int) : PwrPhase :=
  match vcomEncodeSigned v with
  | none => .ret (.error .range)
  | some (low, high) => .wrmvLow low high

/-- The low write; a failing one ends the operation before the second. -/
def vcomWrmvLow (low high : Byte) (p : Pwr) : Pwr :=
  match p.writeVcomL low with
  | (.err e _, p) => p.raise (.transport e)
  | (.ok, p) => p.goto (.wrmvHigh high)

/-- The high write. -/
def vcomWrmvHigh (high : Byte) (p : Pwr) : Pwr :=
  match p.writeVcomH high with
  | (.err e _, p) => p.raise (.transport e)
  | (.ok, p) => p.complete .ok

/-! ### `FLT.STATE` and `FLT.PG` (spec/44_fault_status.md R231, R232) -/

/-- One read of the fault register, then `flt_state`. -/
def fltStateRead (p : Pwr) : Pwr :=
  match p.readFault with
  | (.err e, p) => p.raise (.transport e)
  | (.ok v, p) => p.complete (fltStateOf v)

/-- One read of the fault register, then `flt_pg`. -/
def fltPgRead (p : Pwr) : Pwr :=
  match p.readFault with
  | (.err e, p) => p.raise (.transport e)
  | (.ok v, p) => p.complete (.bit (fltPgBit v))

/-! ### The agent -/

/-- One micro-step of `PWR`, and the result where it is an operation's last; an idle agent has none. -/
def Pwr.micro (p : Pwr) : Pwr × Option Result :=
  match p.phase with
  | .idle => (p, none)
  | .enWrite => (railEnWrite p, none)
  | .enRail => ((p.setRail .enabling).goto .enIter, none)
  | .enIter => ((p.setIter 0).goto (.enPoll 0), none)
  | .enPoll t => (railEnPoll t p, none)
  | .enCount t g => ((p.setIter (p.iter + 1)).goto (.enKeep t g), none)
  | .enKeep t g => ((p.setPgLast g).goto (enRead t g), none)
  | .enSleep t => (railEnSleep t p, none)
  | .enGood t => ((p.setRail .enabled).goto (.enReport t), none)
  | .enReport t => (railEnReport t p, none)
  | .enAbort e => ((p.setRail .enabled).raise (.gpioRead e), none)
  | .enFail t => ((p.setRail .failed).goto (.forcedWrite t), none)
  | .forcedWrite t => (railForcedWrite t p, none)
  | .forcedSleep t => (p.rampSleep.2.goto (.forcedRail t), none)
  | .forcedRail t => ((p.setRail .disabled).goto (.enTimeout t), none)
  | .enTimeout t => (railEnTimeout t p, none)
  | .disWrite => (railDisWrite p, none)
  | .disSleep w => (railDisSleep w p, none)
  | .disRail => ((p.setRail .disabled).complete .ok, none)
  | .isenQuery => (railIsenQuery p, none)
  | .statInit => ((p.setIter 0).goto .statPoll, none)
  | .statPoll => (railStatPoll p, none)
  | .statCount g => ((p.setIter (p.iter + 1)).goto (.statKeep g), none)
  | .statKeep g => ((p.setPgLast g).goto (statRead g), none)
  | .statSleep => (railStatSleep p, none)
  | .rdmvLow => (vcomRdmvLow p, none)
  | .rdmvHigh low => (vcomRdmvHigh low p, none)
  | .rduvLow => (vcomRduvLow p, none)
  | .rduvHigh low => (vcomRduvHigh low p, none)
  | .wrmvLow low high => (vcomWrmvLow low high p, none)
  | .wrmvHigh high => (vcomWrmvHigh high p, none)
  | .fltStateRead => (fltStateRead p, none)
  | .fltPgRead => (fltPgRead p, none)
  | .ret r => p.leave r

/-- At most `fuel` micro-steps, stopping when the operation ends. -/
def Pwr.run (fuel : Nat) (p : Pwr) : Pwr × Option Result :=
  match fuel with
  | 0 => (p, none)
  | k + 1 =>
    if p.phase = .idle then (p, none)
    else
      match p.micro with
      | (p, some r) => (p, some r)
      | (p, none) => Pwr.run k p

/-- Enough micro-steps for any operation to end: four for each of 500 loops of `RAIL.EN`, and those before and after
the loop (R180). -/
def Pwr.bound : Nat := 4 * Config.pollMax + 10

/-- The operation in flight runs to its end; every operation ends (R180). -/
def Pwr.finish (p : Pwr) : Pwr × Option Result :=
  Pwr.run Pwr.bound p

/-- An operation starts: `pwr_busy <- 1`, its first micro-step (spec/42_power_rail_sequencer.md R160). -/
def Pwr.start (ph : PwrPhase) (p : Pwr) : Pwr :=
  { p with busy := true, phase := ph }

end Sys2Proof.Machine
end

