-- ==== Sys2Proof/Machine/Agents.lean ====
section
/-! DEFINITION. Starting, advancing and finishing an operation of an agent inside the whole machine. A command
for a busy agent waits until the agent is idle (spec/20_memory.md R62, R63,
spec/93_implementation_defined.md U7; log entry 9). -/

namespace Sys2Proof.Machine

/-- The half after a run or a micro-step of `DIG`, and its result, if any, to the host. -/
def State.putDig (r : Dig × Option Result) (s : State) : State :=
  { s with dig := r.1, results := s.results ++ r.2.toList }

/-- The half after a run or a micro-step of `PWR`, and its result, if any, to the host. -/
def State.putPwr (r : Pwr × Option Result) (s : State) : State :=
  { s with pwr := r.1, results := s.results ++ r.2.toList }

/-- `DIG` finishes what it has in flight; an idle agent is left as it is. -/
def State.settleDig (s : State) : State :=
  s.putDig s.dig.finish

/-- `PWR` finishes what it has in flight; an idle agent is left as it is. -/
def State.settlePwr (s : State) : State :=
  s.putPwr s.pwr.finish

/-- A `DIG` operation starts, after the one in flight if there is one, and stays in flight. -/
def State.launchDig (ph : DigPhase) (s : State) : State :=
  { s.settleDig with dig := s.settleDig.dig.start ph }

/-- A `PWR` operation starts, after the one in flight if there is one, and stays in flight. -/
def State.launchPwr (ph : PwrPhase) (s : State) : State :=
  { s.settlePwr with pwr := s.settlePwr.pwr.start ph }

/-- A whole `DIG` operation. -/
def State.runDig (ph : DigPhase) (s : State) : State :=
  (s.launchDig ph).settleDig

/-- A whole `PWR` operation. -/
def State.runPwr (ph : PwrPhase) (s : State) : State :=
  (s.launchPwr ph).settlePwr

/-- The result of a pure operation of the digitizer side's units: it is returned once `dig_busy = 0`, and no other
state is read or written (spec/00_scope.md R10, spec/20_memory.md R62, spec/30_encoding.md R96; log entries 9
and 30). -/
def State.answerDig (r : Result) (s : State) : State :=
  s.settleDig.reply r

/-- The result of a pure operation of the power side's units: it is returned once `pwr_busy = 0`, and no other
state is read or written (spec/20_memory.md R63, spec/92_eei_decisions.md D25, spec/30_encoding.md R96; log
entries 9 and 30). -/
def State.answerPwr (r : Result) (s : State) : State :=
  s.settlePwr.reply r

/-- One micro-step of an agent (spec/00_scope.md R9, R10). -/
def State.advance (a : Agent) (s : State) : State :=
  match a with
  | .dig => s.putDig s.dig.micro
  | .pwr => s.putPwr s.pwr.micro

end Sys2Proof.Machine
end

