-- ==== Sys2Proof/Machine/FaultStatus.lean ====
section
/-! DEFINITION. The `FLT` operations (spec/44_fault_status.md). -/

namespace Sys2Proof.Machine

/-- `FLT.STATE` starts. -/
def launchFltState (s : State) : State := s.launchPwr .fltStateRead

/-- `FLT.PG` starts. -/
def launchFltPg (s : State) : State := s.launchPwr .fltPgRead

/-- `FLT.STATE` (R231). -/
def execFltState (s : State) : Host.Outcome State Fault Refusal :=
  .next (s.runPwr .fltStateRead)

/-- `FLT.PG` (R232). -/
def execFltPg (s : State) : Host.Outcome State Fault Refusal :=
  .next (s.runPwr .fltPgRead)

end Sys2Proof.Machine
end

