-- ==== Sys2Proof/Machine/Interrupt.lean ====
section
/-! DEFINITION. The gate of the interrupt line and the arrival of an edge (spec/41_pen_report.md R146, R147,
spec/60_exceptions.md R246 to R248). -/

namespace Sys2Proof.Machine

/-- `IRQ.EN` starts (R146). -/
def launchIrqEn (s : State) : State := s.launchDig (.irqGate true)

/-- `IRQ.DIS` starts, after a `PEN.IRQ` in flight (R147). -/
def launchIrqDis (s : State) : State := s.launchDig (.irqGate false)

/-- `IRQ.EN` (R146). -/
def execIrqEn (s : State) : Host.Outcome State Fault Refusal :=
  .next (s.runDig (.irqGate true))

/-- `IRQ.DIS` (R147). -/
def execIrqDis (s : State) : Host.Outcome State Fault Refusal :=
  .next (s.runDig (.irqGate false))

/-- An edge arrives (R246, R247): with one pending already it merges or is lost, and nothing changes; with
interrupts enabled it becomes pending; else it is held or lost as ENV draws. -/
def Dig.edge (draw : EdgeDraw) (d : Dig) : Dig :=
  if d.irqPend then d
  else if d.irqEn then { d with irqPend := true }
  else
    match draw with
    | .held => { d with irqHeld := true }
    | .lost => d

end Sys2Proof.Machine
end

