-- ==== Sys2Proof/Machine/System.lean ====
section
/-! DEFINITION. `SYS.RESET` (spec/70_reset_and_hazards.md R280 to R283) and the answer to an illegal command
(spec/30_encoding.md R98). -/

namespace Sys2Proof.Machine

/-- What `SYS.RESET` writes in the digitizer side (R280): `tool.kind` and the `caps` fields become
unspecified, free values (log entry 7). A held edge is the platform's and stays (log entry 11). -/
def Dig.systemReset (d : Dig) : Dig :=
  { d with
    caps := { valid := false, limits := Config.freeLimits d.unspec }
    tool := { prox := false, kind := Config.freeKind d.unspec }
    irqEn := false
    irqPend := false
    sink := []
    busy := false
    phase := .idle
    unspec := d.unspec + 1 }

/-- What `SYS.RESET` writes in the power side (R280); the chip and the line are not touched (R281). -/
def Pwr.systemReset (p : Pwr) : Pwr :=
  { p with rail := .disabled, iter := 0, pgLast := false, busy := false, phase := .idle }

/-- Both halves; it waits for both agents to be idle (R282; log entry 9). -/
def State.systemReset (s : State) : State :=
  let s := s.settleDig.settlePwr
  { s with dig := s.dig.systemReset, pwr := s.pwr.systemReset }

/-- `SYS.RESET` (R280): `Ok`, no port used. -/
def execSysReset (s : State) : Host.Outcome State Fault Refusal :=
  .next (s.systemReset.reply .ok)

/-- The answer to a command code with no operation (spec/30_encoding.md R98): no port, no state change. It is
given at once, ahead of an operation in flight (DESIGN CHOICE, log entry 34). -/
def State.illegal (s : State) : State :=
  s.reply (.error .illegalCommand)

end Sys2Proof.Machine
end

