-- ==== Sys2Proof/Machine/Pen.lean ====
section
/-! DEFINITION. The `PEN` operations (spec/41_pen_report.md): the service of an interrupt edge and the pure
decode. -/

namespace Sys2Proof.Machine

/-- A pending edge may be served: `irq_pend = 1` and `irq_en = 1` (R145); `dig_busy = 0` is what the
service waits for. -/
def State.edgeReady (s : State) : Bool :=
  s.dig.irqPend && s.dig.irqEn

/-- `PEN.IRQ` starts: `dig_busy <- 1 ; irq_pend <- 0` (R131), both by the start (R145: "starting it clears `irq_pend`
and sets `dig_busy`"). -/
def State.launchPen (s : State) : State :=
  State.launchDig .penRecv { s with dig := { s.dig with irqPend := false } }

/-- `PEN.IRQ` (R131): once `dig_busy = 0`, with a pending edge and interrupts enabled it serves the edge to
the end; without, nothing but the host can have asked for it, and that is an illegal command (R98, R145; log
entry 19). -/
def execPenIrq (s : State) : Host.Outcome State Fault Refusal :=
  .next (if s.settleDig.edgeReady then s.settleDig.launchPen.settleDig else s.settleDig.illegal)

/-- `PEN.DEC` (R130): a pure function of its operands, run when `dig_busy = 0` (spec/00_scope.md R10,
spec/20_memory.md R62; log entry 30). -/
def execPenDec (raw : ReportBuf) (ts : ToolState) (s : State) : Host.Outcome State Fault Refusal :=
  .next (s.answerDig (.sample (penDecode raw ts).1 (penDecode raw ts).2))

end Sys2Proof.Machine
end

