-- ==== Sys2Proof/Machine/Query.lean ====
section
/-! DEFINITION. The `QRY` operations (spec/40_query_report.md). -/

namespace Sys2Proof.Machine

/-- `QRY.XFER` starts, once `dig_busy = 0` (R112). -/
def launchQryXfer (s : State) : State := s.settleDig.launchDig (qryFirst s.settleDig.dig)

/-- `QRY.XFER` (R112). -/
def execQryXfer (s : State) : Host.Outcome State Fault Refusal :=
  .next (s.settleDig.runDig (qryFirst s.settleDig.dig))

/-- `QRY.DEC` (R111): a pure function of its operand, run when `dig_busy = 0` (spec/00_scope.md R10,
spec/20_memory.md R62; log entry 30). -/
def execQryDec (qbuf : QueryBuf) (s : State) : Host.Outcome State Fault Refusal :=
  .next (s.answerDig (.limits (qryDecode qbuf)))

end Sys2Proof.Machine
end

