-- ==== Sys2Proof/Machine/Rail.lean ====
section
/-! DEFINITION. The `RAIL` operations (spec/42_power_rail_sequencer.md). -/

namespace Sys2Proof.Machine

/-- `RAIL.EN` starts. -/
def launchRailEn (s : State) : State := s.launchPwr .enWrite

/-- `RAIL.DIS` starts. -/
def launchRailDis (s : State) : State := s.launchPwr .disWrite

/-- `RAIL.ISEN` starts. -/
def launchRailIsen (s : State) : State := s.launchPwr .isenQuery

/-- `RAIL.STAT` starts. -/
def launchRailStat (s : State) : State := s.launchPwr .statInit

/-- `RAIL.EN` (R161). -/
def execRailEn (s : State) : Host.Outcome State Fault Refusal :=
  .next (s.runPwr .enWrite)

/-- `RAIL.DIS` (R170). -/
def execRailDis (s : State) : Host.Outcome State Fault Refusal :=
  .next (s.runPwr .disWrite)

/-- `RAIL.ISEN` (R175). -/
def execRailIsen (s : State) : Host.Outcome State Fault Refusal :=
  .next (s.runPwr .isenQuery)

/-- `RAIL.STAT` (R177). -/
def execRailStat (s : State) : Host.Outcome State Fault Refusal :=
  .next (s.runPwr .statInit)

end Sys2Proof.Machine
end

