-- ==== Sys2Proof/Machine/Vcom.lean ====
section
/-! DEFINITION. The `VCOM` operations (spec/43_vcom_codec.md). -/

namespace Sys2Proof.Machine

/-- `VCOM.DEC` (R200): a pure function of its operands, run when `pwr_busy = 0` (spec/20_memory.md R63; log
entries 9 and 30). -/
def execVcomDec (low high : Byte) (s : State) : Host.Outcome State Fault Refusal :=
  .next (s.answerPwr (.int (vcomDecode low high)))

/-- `VCOM.DECUV` (R201); run when `pwr_busy = 0` (R63; log entry 30). -/
def execVcomDecuv (low high : Byte) (s : State) : Host.Outcome State Fault Refusal :=
  .next (s.answerPwr (.int (vcomDecodeUv low high)))

/-- `VCOM.ENC` (R202); run when `pwr_busy = 0` (R63; log entry 30). -/
def execVcomEnc (m : Int) (s : State) : Host.Outcome State Fault Refusal :=
  .next (s.answerPwr (pairOrRange (vcomEncode m)))

/-- `VCOM.RDMV` starts. -/
def launchVcomRdmv (s : State) : State := s.launchPwr .rdmvLow

/-- `VCOM.RDUV` starts. -/
def launchVcomRduv (s : State) : State := s.launchPwr .rduvLow

/-- `VCOM.WRMV` starts. -/
def launchVcomWrmv (v : Int) (s : State) : State := s.launchPwr (wrmvFirst v)

/-- `VCOM.RDMV` (R205). -/
def execVcomRdmv (s : State) : Host.Outcome State Fault Refusal :=
  .next (s.runPwr .rdmvLow)

/-- `VCOM.RDUV` (R206). -/
def execVcomRduv (s : State) : Host.Outcome State Fault Refusal :=
  .next (s.runPwr .rduvLow)

/-- `VCOM.WRMV` (R207). -/
def execVcomWrmv (v : Int) (s : State) : Host.Outcome State Fault Refusal :=
  .next (s.runPwr (wrmvFirst v))

end Sys2Proof.Machine
end

