-- ==== Sys2Proof/Machine/Dispatch.lean ====
section
/-! DEFINITION. One arm per operation of spec/opcode_table.json, each a direct call of its meaning. -/

namespace Sys2Proof.Machine

def exec (i : Instr) (s : State) : Host.Outcome State Fault Refusal :=
  match i with
  | .sysReset => Sys2Proof.Machine.execSysReset s
  | .qryXfer => Sys2Proof.Machine.execQryXfer s
  | .qryDec qbuf => Sys2Proof.Machine.execQryDec qbuf s
  | .penIrq => Sys2Proof.Machine.execPenIrq s
  | .penDec raw ts => Sys2Proof.Machine.execPenDec raw ts s
  | .irqEn => Sys2Proof.Machine.execIrqEn s
  | .irqDis => Sys2Proof.Machine.execIrqDis s
  | .railEn => Sys2Proof.Machine.execRailEn s
  | .railDis => Sys2Proof.Machine.execRailDis s
  | .railIsen => Sys2Proof.Machine.execRailIsen s
  | .railStat => Sys2Proof.Machine.execRailStat s
  | .vcomDec low high => Sys2Proof.Machine.execVcomDec low high s
  | .vcomDecuv low high => Sys2Proof.Machine.execVcomDecuv low high s
  | .vcomEnc m => Sys2Proof.Machine.execVcomEnc m s
  | .vcomRdmv => Sys2Proof.Machine.execVcomRdmv s
  | .vcomRduv => Sys2Proof.Machine.execVcomRduv s
  | .vcomWrmv v => Sys2Proof.Machine.execVcomWrmv v s
  | .fltState => Sys2Proof.Machine.execFltState s
  | .fltPg => Sys2Proof.Machine.execFltPg s

end Sys2Proof.Machine
end

