-- ==== Sys2Proof/Machine/Moves.lean ====
section
/-! DEFINITION. What each move of the host and the environment does (spec/00_scope.md R10,
spec/30_encoding.md R95, R98, spec/60_exceptions.md R246 to R250; log entries 8 to 10). -/

namespace Sys2Proof.Machine

/-- An operation starts and stays in flight, its micro-steps to be made by `advance` moves. An operation that
is one indivisible step (a pure function, `SYS.RESET`) runs whole. `PEN.IRQ` is no command (R98). -/
def launch (i : Instr) (s : State) : Host.Outcome State Fault Refusal :=
  match i with
  | .sysReset => exec i s
  | .qryXfer => .next (launchQryXfer s)
  | .qryDec _ => exec i s
  | .penIrq => .next s.illegal
  | .penDec _ _ => exec i s
  | .irqEn => .next (launchIrqEn s)
  | .irqDis => .next (launchIrqDis s)
  | .railEn => .next (launchRailEn s)
  | .railDis => .next (launchRailDis s)
  | .railIsen => .next (launchRailIsen s)
  | .railStat => .next (launchRailStat s)
  | .vcomDec _ _ => exec i s
  | .vcomDecuv _ _ => exec i s
  | .vcomEnc _ => exec i s
  | .vcomRdmv => .next (launchVcomRdmv s)
  | .vcomRduv => .next (launchVcomRduv s)
  | .vcomWrmv v => .next (launchVcomWrmv v s)
  | .fltState => .next (launchFltState s)
  | .fltPg => .next (launchFltPg s)

/-- A command frame reaches the command port: the decoded operation goes to `go`; an illegal code, `PEN.IRQ`
from the host among them, is answered `IllegalCommand` (R98); a frame without all its operands is refused
(log entry 2). -/
def issue (go : Instr → State → Host.Outcome State Fault Refusal) (code : Byte) (operands : List Byte)
    (s : State) : Host.Outcome State Fault Refusal :=
  match decode (code :: operands) with
  | .ok i _ => if i.hostIssued then go i s else .next s.illegal
  | .bad (.operandsMissing c) => .refused (.incompleteCommand c)
  | .bad (.illegalCommand _) => .next s.illegal
  | .bad .noCode => .next s.illegal

/-- A pending edge is served whole, once `dig_busy = 0`; with no edge to serve nothing happens (R145). -/
def serve (s : State) : Host.Outcome State Fault Refusal :=
  if s.settleDig.edgeReady then exec .penIrq s.settleDig else .next s.settleDig

/-- The service of a pending edge starts, once `dig_busy = 0`, and stays in flight. -/
def launchServe (s : State) : Host.Outcome State Fault Refusal :=
  .next (if s.settleDig.edgeReady then s.settleDig.launchPen else s.settleDig)

/-- The host reads the capability limits (spec/10_state.md R22): a fault while they are unspecified. One read
delivers all eight (DESIGN CHOICE, log entry 32). -/
def readCaps (s : State) : Host.Outcome State Fault Refusal :=
  if s.dig.caps.valid then .next (s.reply (.limits s.dig.caps.limits)) else .fault .capsUnspecified

/-- The host reads `caps.valid`, which it may at any time (spec/10_state.md R22; log entry 32). -/
def readCapsValid (s : State) : Host.Outcome State Fault Refusal :=
  .next (s.reply (.bit s.dig.caps.valid))

/-- One move. -/
def perform (m : Move) (s : State) : Host.Outcome State Fault Refusal :=
  match m with
  | .command code operands => issue exec code operands s
  | .launch code operands => issue launch code operands s
  | .advance a => .next (s.advance a)
  | .service => serve s
  | .launchService => launchServe s
  | .edge draw => .next { s with dig := s.dig.edge draw }
  | .line b => .next { s with pwr := { s.pwr with pgood := b } }
  | .faultReg v => .next { s with pwr := { s.pwr with chip := { s.pwr.chip with fault := v } } }
  | .readCaps => readCaps s
  | .readCapsValid => readCapsValid s

/-- With no move left the block goes on by itself: an operation in flight makes its next micro-step, a
pending edge is served (spec/60_exceptions.md R248), and else the run is over and nothing changes
(spec/70_reset_and_hazards.md R302). -/
def unattended (s : State) : Host.Outcome State Fault Refusal :=
  if s.dig.phase != .idle then .next (s.advance .dig)
  else if s.pwr.phase != .idle then .next (s.advance .pwr)
  else if s.edgeReady then exec .penIrq s
  else .next s

/-- The next move of the inbox is taken out and made. -/
def stepMove (s : State) : Host.Outcome State Fault Refusal :=
  match s.inbox with
  | [] => unattended s
  | m :: rest => perform m { s with inbox := rest }

/-- A table word placed where the next step takes its operation from (log entry 28): its command frame as
the next move; for `PEN.IRQ`, which no command starts (R98), its start condition (R145) and the service of the
edge as the next move. -/
def placeWord (nbits w : Nat) (s : State) : State :=
  match tableFrame nbits w with
  | [] => s
  | code :: operands =>
    if code = 0x20 then
      { s with
        dig := { s.dig with irqPend := true, irqEn := true, busy := false, phase := .idle }
        inbox := .service :: s.inbox }
    else { s with inbox := .command code operands :: s.inbox }

end Sys2Proof.Machine
end

