-- ==== Sys2Proof/Machine/Step.lean ====
section
/-! DEFINITION. One step of the machine: the next move of the inbox, or, with none left, what the block does
by itself (log entry 8). -/

namespace Sys2Proof.Machine

/-- One step. -/
def step (s : State) : Host.Outcome State Fault Refusal :=
  stepMove s

/-- `s` with a table word where `step` takes its next operation from. -/
def State.withFetchWord (s : State) (nbits w : Nat) : State :=
  placeWord nbits w s

end Sys2Proof.Machine
end

