-- ==== Sys2Proof/Safety.lean ====
section
/-! DEFINITION. What claims about the machine are stated in: the invariant every step keeps, the end of a run,
the answers the environment gives next, and executions as lists of micro-steps. -/

namespace Sys2Proof.Machine

/-! ### The sink is a list of whole batches (spec/41_pen_report.md R140) -/

/-- The twelve fields of a batch, in order. -/
def batchFields : List SinkField :=
  [.touch, .eraser, .stylusButton1, .stylusButton2, .inProximity, .toolKind, .x, .y, .pressure, .distance,
   .tiltX, .tiltY]

/-- Reads events against the fields a batch still expects, and answers the fields then expected; none where an
event stands out of order. -/
def sinkScan (sink : List SinkEvent) (expected : List SinkField) : Option (List SinkField) :=
  match sink, expected with
  | [], e => some e
  | .field n _ :: rest, m :: ms => if n = m then sinkScan rest ms else none
  | .field _ _ :: _, [] => none
  | .commit :: rest, [] => sinkScan rest batchFields
  | .commit :: _, _ :: _ => none

/-- Every batch is whole: twelve fields in order, then one Commit. -/
def wholeBatches (sink : List SinkEvent) : Prop :=
  sinkScan sink batchFields = some batchFields

/-! ### The invariant -/

/-- A `PEN.IRQ` is in flight. -/
def DigPhase.servesEdge (ph : DigPhase) : Bool :=
  match ph with
  | .penRecv => true
  | .penDecode _ => true
  | .penEmit _ _ => true
  | .ret r => r.isNone
  | _ => false

/-- A `QRY.XFER` has passed its SequenceError test and not yet latched. -/
def DigPhase.queries (ph : DigPhase) : Bool :=
  match ph with
  | .qryPulse => true
  | .qryTransfer => true
  | .qryLatch _ => true
  | _ => false

/-- The events of the batch still to come. -/
def DigPhase.pendingEvents (ph : DigPhase) : List SinkEvent :=
  match ph with
  | .penEmit e rest => e :: rest
  | _ => []

/-- The digitizer side is as spec/10_state.md says it always is: `dig_busy` tells an operation in flight (R33);
a service runs only while interrupts are enabled (R26); at most one edge is pending or held, a held one only
while interrupts are disabled (R27, R247); a query goes on only over an empty latch (R117); the sink holds whole
batches, but for the one being emitted (R28). -/
structure Dig.Inv (d : Dig) : Prop where
  busy_iff : d.busy = true ↔ d.phase ≠ .idle
  serve_enabled : d.phase.servesEdge = true → d.irqEn = true
  held_once : d.irqHeld = true → d.irqEn = false ∧ d.irqPend = false
  query_empty : d.phase.queries = true → d.caps.valid = false
  batches : wholeBatches (d.sink ++ d.phase.pendingEvents)

/-- `rail` fits the phase (spec/42_power_rail_sequencer.md R168): Enabling only in the poll of `RAIL.EN`, Failed
only in its forced disable, else Disabled or Enabled. -/
def railFits (ph : PwrPhase) (r : RailState) : Prop :=
  match ph with
  | .enIter => r = .enabling
  | .enPoll _ => r = .enabling
  | .enCount _ _ => r = .enabling
  | .enKeep _ _ => r = .enabling
  | .enSleep _ => r = .enabling
  | .enGood _ => r = .enabling
  | .enAbort _ => r = .enabling
  | .enFail _ => r = .enabling
  | .forcedWrite _ => r = .failed
  | .forcedSleep _ => r = .failed
  | .forcedRail _ => r = .failed
  | _ => r = .disabled ∨ r = .enabled

/-- The poll sleeps counted by `n` reads of 0 sum to `t`, each between its bounds (R163). -/
def sleptFor (n t : Nat) : Prop :=
  n * Config.pollSleepMin ≤ t ∧ t ≤ n * Config.pollSleepMax

/-- All 500 reads answered 0, and every sleep is done (R166). -/
def pollExhausted (t iter : Nat) (pgLast : Bool) : Prop :=
  iter = Config.pollMax ∧ sleptFor iter t ∧ pgLast = false

/-- What the poll loops and the exits of the one of `RAIL.EN` know (R163, R165, R166): the sleeps so far, how many reads
are counted, and that no read but 0 came before the last one. -/
def pollFits (ph : PwrPhase) (iter : Nat) (pgLast : Bool) : Prop :=
  match ph with
  | .enPoll t => iter < Config.pollMax ∧ sleptFor iter t ∧ (0 < iter → pgLast = false)
  | .enCount t _ => iter < Config.pollMax ∧ sleptFor iter t ∧ (0 < iter → pgLast = false)
  | .enKeep t _ => 0 < iter ∧ sleptFor (iter - 1) t ∧ (1 < iter → pgLast = false)
  | .enSleep t => 0 < iter ∧ sleptFor (iter - 1) t ∧ pgLast = false
  | .enGood t => 0 < iter ∧ sleptFor (iter - 1) t ∧ pgLast = true
  | .enReport t => 0 < iter ∧ sleptFor (iter - 1) t ∧ pgLast = true
  | .enAbort _ => iter < Config.pollMax ∧ (0 < iter → pgLast = false)
  | .enFail t => pollExhausted t iter pgLast
  | .forcedWrite t => pollExhausted t iter pgLast
  | .forcedSleep t => pollExhausted t iter pgLast
  | .forcedRail t => pollExhausted t iter pgLast
  | .enTimeout t => pollExhausted t iter pgLast
  | .statPoll => iter < Config.pollMax ∧ (0 < iter → pgLast = false)
  | .statCount _ => iter < Config.pollMax ∧ (0 < iter → pgLast = false)
  | .statKeep _ => 0 < iter ∧ (1 < iter → pgLast = false)
  | .statSleep => 0 < iter ∧ pgLast = false
  | _ => True

/-- The power side is as spec/10_state.md says it always is: `pwr_busy` tells an operation in flight (R33);
`iter` is 0 to 500 (R31); `rail` and the loop's values fit the phase. -/
structure Pwr.Inv (p : Pwr) : Prop where
  busy_iff : p.busy = true ↔ p.phase ≠ .idle
  iter_le : p.iter.toNat ≤ Config.pollMax
  rail_fits : railFits p.phase p.rail
  poll_fits : pollFits p.phase p.iter.toNat p.pgLast

/-- Both halves. -/
structure State.Inv (s : State) : Prop where
  dig : s.dig.Inv
  pwr : s.pwr.Inv

/-! ### The end of a run (spec/70_reset_and_hazards.md R302) -/

/-- The move issues a command of the host. A host read of `caps` is no command, since it has no command code
(spec/30_encoding.md R95; DEDUCED, log entry 33). -/
def Move.isCommand (m : Move) : Bool :=
  match m with
  | .command _ _ => true
  | .launch _ _ => true
  | .advance _ => false
  | .service => false
  | .launchService => false
  | .edge _ => false
  | .line _ => false
  | .faultReg _ => false
  | .readCaps => false
  | .readCapsValid => false

/-- The run is over (R302): the host has no further command to issue, `dig_busy = 0`, `pwr_busy = 0`, and either
`irq_pend = 0` or `irq_en = 0`. The environment may have moves left. -/
def State.ended (s : State) : Prop :=
  (∀ m ∈ s.inbox, m.isCommand = false) ∧ s.dig.busy = false ∧ s.pwr.busy = false ∧
    (s.dig.irqPend = false ∨ s.dig.irqEn = false)

/-- Both agents idle. -/
def State.idle (s : State) : Prop :=
  s.dig.phase = .idle ∧ s.pwr.phase = .idle

/-! ### What the environment answers next (spec/00_scope.md R13): the script, then the free draws -/

/-- The next answer of `BusTransfer`. -/
def Dig.nextTransfer (d : Dig) : TransferAnswer := d.transfers.nth Config.freeTransfer 0
/-- The next answer of `BusRecv`. -/
def Dig.nextRecv (d : Dig) : RecvAnswer := d.reportReads.nth Config.freeRecv 0
/-- The next answer of `RailWrite`. -/
def Pwr.nextRailWrite (p : Pwr) : WriteAnswer := p.railWrites.nth Config.freeRailWrite 0
/-- The answer of `RailWrite` after that. -/
def Pwr.secondRailWrite (p : Pwr) : WriteAnswer := p.railWrites.nth Config.freeRailWrite 1
/-- The next answer of `RailQuery`. -/
def Pwr.nextRailQuery (p : Pwr) : ReadAnswer := p.railQueries.nth Config.freeRailQuery 0
/-- The answer of the `k`-th `GpioRead` from now, counted from 0. -/
def Pwr.lineAt (p : Pwr) (k : Nat) : LineAnswer := p.lineReads.nth Config.freeLine k
/-- The duration of the `k`-th `Sleep` from now, for the bounds of that sleep. -/
def Pwr.sleepAt (p : Pwr) (lo hi k : Nat) : Nat := sleepTime lo hi (p.sleeps.nth Config.freeSleep k)
/-- The next answer of a `RegRead` of a VCOM register. -/
def Pwr.nextVcomRead (p : Pwr) : ReadAnswer := p.vcomReads.nth Config.freeVcomRead 0
/-- The answer of such a read after that. -/
def Pwr.secondVcomRead (p : Pwr) : ReadAnswer := p.vcomReads.nth Config.freeVcomRead 1
/-- The next answer of `RegRead(REG_FAULT)`. -/
def Pwr.nextFaultRead (p : Pwr) : ByteAnswer := p.faultReads.nth Config.freeFaultRead 0
/-- The next answer of `RegWrite`. -/
def Pwr.nextVcomWrite (p : Pwr) : WriteAnswer := p.vcomWrites.nth Config.freeVcomWrite 0
/-- The answer of `RegWrite` after that. -/
def Pwr.secondVcomWrite (p : Pwr) : WriteAnswer := p.vcomWrites.nth Config.freeVcomWrite 1

/-- The sum of the first `k` poll sleeps from now. -/
def Pwr.pollTime (p : Pwr) (k : Nat) : Nat :=
  match k with
  | 0 => 0
  | j + 1 => p.pollTime j + p.sleepAt Config.pollSleepMin Config.pollSleepMax j

/-- The trace of `k` poll iterations that answered 0: a read and a sleep each (R163). -/
def Pwr.pollTrace (p : Pwr) (k : Nat) : List PwrPort :=
  match k with
  | 0 => []
  | j + 1 =>
    p.pollTrace j ++
      [.gpioRead (p.lineAt j),
       .sleep Config.pollSleepMin Config.pollSleepMax (p.sleepAt Config.pollSleepMin Config.pollSleepMax j)]

/-! ### The side and the agent of an operation (spec/00_scope.md R10, spec/30_encoding.md R96) -/

/-- The side whose units the operation belongs to, and whose one operation at a time it is part of (R10, R62, R63);
`SYS.RESET` belongs to both. -/
def sideOf (i : Instr) : Option Agent :=
  match i with
  | .sysReset => none
  | .qryXfer => some .dig
  | .qryDec _ => some .dig
  | .penIrq => some .dig
  | .penDec _ _ => some .dig
  | .irqEn => some .dig
  | .irqDis => some .dig
  | .railEn => some .pwr
  | .railDis => some .pwr
  | .railIsen => some .pwr
  | .railStat => some .pwr
  | .vcomDec _ _ => some .pwr
  | .vcomDecuv _ _ => some .pwr
  | .vcomEnc _ => some .pwr
  | .vcomRdmv => some .pwr
  | .vcomRduv => some .pwr
  | .vcomWrmv _ => some .pwr
  | .fltState => some .pwr
  | .fltPg => some .pwr

/-- The agent that executes the micro-steps of an operation; none where the operation is one indivisible step: a
pure function, `SYS.RESET`. -/
def agentOf (i : Instr) : Option Agent :=
  match i with
  | .sysReset => none
  | .qryXfer => some .dig
  | .qryDec _ => none
  | .penIrq => some .dig
  | .penDec _ _ => none
  | .irqEn => some .dig
  | .irqDis => some .dig
  | .railEn => some .pwr
  | .railDis => some .pwr
  | .railIsen => some .pwr
  | .railStat => some .pwr
  | .vcomDec _ _ => none
  | .vcomDecuv _ _ => none
  | .vcomEnc _ => none
  | .vcomRdmv => some .pwr
  | .vcomRduv => some .pwr
  | .vcomWrmv _ => some .pwr
  | .fltState => some .pwr
  | .fltPg => some .pwr

/-- The agent has no operation in flight. -/
def State.agentIdle (a : Agent) (s : State) : Prop :=
  match a with
  | .dig => s.dig.phase = .idle
  | .pwr => s.pwr.phase = .idle

/-- The agent finishes what it has in flight. -/
def State.settle (a : Agent) (s : State) : State :=
  match a with
  | .dig => s.settleDig
  | .pwr => s.settlePwr

/-- Enough micro-steps of the agent for any of its operations to end. -/
def Agent.enough (a : Agent) : Nat :=
  match a with
  | .dig => 16
  | .pwr => Pwr.bound

/-! ### What one micro-step does (spec/00_scope.md R9) -/

/-- 1 where the two differ. -/
def differ {α : Type} [DecidableEq α] (a b : α) : Nat :=
  if a = b then 0 else 1

/-- How many internal updates and interactions with the environment lie between two digitizer sides: elements that
differ, events emitted, port primitives used. The edge bits are left out: the environment sets them
(spec/10_state.md R27). -/
def Dig.acts (d e : Dig) : Nat :=
  differ d.caps e.caps + differ d.tool e.tool + differ d.irqEn e.irqEn + differ d.busy e.busy +
    (e.sink.length - d.sink.length) + (e.trace.length - d.trace.length)

/-- The same between two power sides; a draw of `elapsed` counts as an interaction. -/
def Pwr.acts (p q : Pwr) : Nat :=
  differ p.rail q.rail + differ p.iter q.iter + differ p.pgLast q.pgLast + differ p.busy q.busy +
    differ p.overheads q.overheads + (q.trace.length - p.trace.length)

/-! ### Interleavings (spec/20_memory.md R65) -/

/-- The micro-steps of a schedule, in its order. -/
def State.schedule (order : List Agent) (s : State) : State :=
  match order with
  | [] => s
  | a :: rest => (s.advance a).schedule rest

/-- `n` steps of the machine, stopping at the first fault or refusal. -/
def runSteps (n : Nat) (s : State) : Host.Outcome State Fault Refusal :=
  match n with
  | 0 => .next s
  | k + 1 =>
    match step s with
    | .next t => runSteps k t
    | .fault f => .fault f
    | .refused r => .refused r

/-- `n` micro-steps of the digitizer side by itself. -/
def Dig.steps (n : Nat) (d : Dig) : Dig :=
  match n with
  | 0 => d
  | k + 1 => d.micro.1.steps k

/-- `n` micro-steps of the power side by itself. -/
def Pwr.steps (n : Nat) (p : Pwr) : Pwr :=
  match n with
  | 0 => p
  | k + 1 => p.micro.1.steps k

end Sys2Proof.Machine
end

