-- ==== Sys2Proof/Certificates/Slice0/Obligations.lean ====
section
/-! DEFINITION. The statements for the provers. Each is about every state it quantifies over, reached by a run
or not. What the environment answers next is read from the state (`Dig.nextTransfer`, `Pwr.lineAt`, ...): the
script or, behind it, a free draw, so a statement holds for every answer it may give (spec/00_scope.md R13). -/

open Sys2Proof Sys2Proof.Machine

/-! ### Reset -/

/-- The values the spec gives for power-on (spec/10_state.md R22, R24, R26 to R29, R31 to R33). -/
def Obligations.PowerOnValues : Prop :=
  State.reset.dig.caps.valid = false ∧ State.reset.dig.tool.prox = false ∧ State.reset.dig.irqEn = false ∧
  State.reset.dig.irqPend = false ∧ State.reset.dig.sink = [] ∧ State.reset.dig.busy = false ∧
  State.reset.pwr.rail = .disabled ∧ State.reset.pwr.iter = 0 ∧ State.reset.pwr.pgLast = false ∧
  State.reset.pwr.busy = false

/-- The invariant holds at power-on. -/
def Obligations.PowerOnMeetsInv : Prop := State.reset.Inv

/-- `SYS.RESET` on idle agents (spec/70_reset_and_hazards.md R280): every block-owned element to its reset
value, `tool.kind` and the limits unspecified (some value), no port used, nothing else changed. That a held edge
outlives the reset (log entry 11) and that the unspecified values are numbered (log entry 7) are the model's. -/
def Obligations.SysResetEffect : Prop :=
  ∀ s : State, s.idle →
    ∃ (l : Limits) (k : ToolKind),
      exec .sysReset s = .next
        { dig := { s.dig with
            caps := { valid := false, limits := l }, tool := { prox := false, kind := k }, irqEn := false,
            irqPend := false, sink := [], busy := false, unspec := s.dig.unspec + 1 }
          pwr := { s.pwr with rail := .disabled, iter := 0, pgLast := false, busy := false }
          inbox := s.inbox
          results := s.results ++ [.ok] }

/-- `SYS.RESET` does not touch the environment (R281), even when it first waits for a `DIG` operation. -/
def Obligations.SysResetLeavesEnvironment : Prop :=
  ∀ s : State, s.pwr.phase = .idle →
    ∃ t, exec .sysReset s = .next t ∧ t.pwr.chip = s.pwr.chip ∧ t.pwr.pgood = s.pwr.pgood ∧
      t.pwr.trace = s.pwr.trace ∧ t.pwr.rail = .disabled

/-! ### The command map and the step -/

/-- Every well-formed operation is decoded from its own bytes, and what follows is left (spec/30_encoding.md
R87, R90, R95). -/
def Obligations.DecodeOfEncode : Prop :=
  ∀ (i : Instr) (rest : List Byte), i.wellFormed = true → decode (encode i ++ rest) = .ok i rest

/-- What is decoded is well-formed, has the code it was decoded from, and takes exactly its own bytes. -/
def Obligations.DecodedIsWellFormed : Prop :=
  ∀ (bytes rest : List Byte) (i : Instr), decode bytes = .ok i rest →
    i.wellFormed = true ∧ bytes.head? = some i.code ∧ bytes.length = (encode i).length + rest.length

/-- The command codes of R95's table, one word of each unit. -/
def Obligations.CodesOfTheMap : Prop :=
  decode [0x00] = .ok .sysReset [] ∧ decode [0x10] = .ok .qryXfer [] ∧ decode [0x22] = .ok .irqEn [] ∧
  decode [0x30] = .ok .railEn [] ∧ decode [0x40, 0xF4, 0x01] = .ok (.vcomDec 0xF4 0x01) [] ∧
  decode [0x45, 0x3C, 0xF6, 0xFF, 0xFF] = .ok (.vcomWrmv (-2500)) [] ∧ decode [0x50] = .ok .fltState [] ∧
  decode [0x7F] = .bad (.illegalCommand 0x7F)

/-- A command frame that decodes runs the decoded operation, and only the move is used up. -/
def Obligations.StepRunsCommand : Prop :=
  ∀ (s : State) (code : Byte) (operands : List Byte) (more : List Move) (i : Instr) (rest : List Byte),
    s.inbox = .command code operands :: more → decode (code :: operands) = .ok i rest →
    i.hostIssued = true → step s = exec i { s with inbox := more }

/-- A pending edge is served by the operation `PEN.IRQ` when interrupts are enabled and `DIG` is idle, by a
`service` move or, with no move left and nothing in flight, by itself; otherwise a `service` move starts
nothing (spec/41_pen_report.md R145). -/
def Obligations.StepServesEdge : Prop :=
  (∀ (s : State) (more : List Move), s.inbox = .service :: more → s.dig.phase = .idle →
    step s = if s.dig.irqPend && s.dig.irqEn then exec .penIrq { s with inbox := more }
      else .next { s with inbox := more }) ∧
  (∀ s : State, s.inbox = [] → s.idle → s.dig.irqPend = true → s.dig.irqEn = true →
    step s = exec .penIrq s)

/-- Every code outside the map, and `0x20` from the host, is answered `IllegalCommand` and changes nothing
(spec/30_encoding.md R98), whether the operation would run whole or only start. The moves (log entry 8) and the
answer at once, ahead of an operation in flight (log entry 34), are the model's. -/
def Obligations.IllegalCommandRefused : Prop :=
  ∀ (s : State) (code : Byte) (operands : List Byte) (more : List Move),
    code ∉ ([0x00, 0x10, 0x11, 0x21, 0x22, 0x23, 0x30, 0x31, 0x32, 0x33, 0x40, 0x41, 0x42, 0x43, 0x44, 0x45,
      0x50, 0x51] : List Byte) →
    s.inbox = .command code operands :: more ∨ s.inbox = .launch code operands :: more →
    step s = .next { s with inbox := more, results := s.results ++ [.error .illegalCommand] }

/-- The end of a run (spec/70_reset_and_hazards.md R302). Nothing is in flight then (R33). With no move left a step
changes nothing, which is the model's (log entry 8). With moves left, none of them a command, a step
uses no port and executes no operation: it changes at most the edge bits, the line, the fault register and, by a
host read, the results; and the run is still over unless an edge has come that can be served. -/
def Obligations.EndedStaysEnded : Prop :=
  ∀ s : State, s.ended →
    (s.Inv → s.idle) ∧
    (s.idle → s.inbox = [] → step s = .next s) ∧
    (s.idle → ∀ t, step s = .next t →
      t.dig = { s.dig with irqPend := t.dig.irqPend, irqHeld := t.dig.irqHeld } ∧
      t.pwr = { s.pwr with pgood := t.pwr.pgood, chip := { s.pwr.chip with fault := t.pwr.chip.fault } } ∧
      (t.results = s.results ∨
        ∃ more, s.inbox = .readCaps :: more ∨ s.inbox = .readCapsValid :: more) ∧
      (t.ended ∨ ∃ draw more, s.inbox = .edge draw :: more ∧ s.dig.irqEn = true))

/-- The host reads `caps` at any time (spec/10_state.md R22): `caps.valid` always, the limits while
`caps.valid = 1`; a read of the limits while they are unspecified is a fault. The two reads as moves, and one read
for all eight limits, are the model's (log entries 8, 18 and 32). -/
def Obligations.CapsReadOrFault : Prop :=
  ∀ (s : State) (more : List Move),
    (s.inbox = .readCapsValid :: more →
      step s = .next { s with inbox := more, results := s.results ++ [.bit s.dig.caps.valid] }) ∧
    (s.inbox = .readCaps :: more →
      step s = if s.dig.caps.valid then
          .next { s with inbox := more, results := s.results ++ [.limits s.dig.caps.limits] }
        else .fault .capsUnspecified)

/-! ### Whole-machine rules -/

/-- Every step keeps the invariant. -/
def Obligations.StepKeepsInv : Prop :=
  ∀ s t : State, s.Inv → step s = .next t → t.Inv

/-- The operations of the power side's units leave the digitizer side as it is, those of the digitizer side's units
the power side (spec/10_state.md R21); a pure operation, with nothing of its side in flight, leaves both
(spec/30_encoding.md R96). What a command to a busy agent does is the model's (log entries 9 and 30). -/
def Obligations.HalvesShareNothing : Prop :=
  ∀ (s t : State) (i : Instr), exec i s = .next t →
    (sideOf i = some .dig → t.pwr = s.pwr) ∧ (sideOf i = some .pwr → t.dig = s.dig) ∧
    (∀ a, sideOf i = some a → agentOf i = none → s.agentIdle a → t.dig = s.dig ∧ t.pwr = s.pwr)

/-- What one half becomes does not depend on the other (R21, spec/20_memory.md R65). What a command to a busy agent
does is the model's (log entries 9 and 30). -/
def Obligations.HalvesAreBlind : Prop :=
  ∀ (s s' t t' : State) (i : Instr), exec i s = .next t → exec i s' = .next t' →
    (s.dig = s'.dig → t.dig = t'.dig) ∧ (s.pwr = s'.pwr → t.pwr = t'.pwr)

/-- Any interleaving of the micro-steps of the two sides leaves each half as its own micro-steps by themselves
leave it (R65). -/
def Obligations.InterleavingsAgree : Prop :=
  ∀ (order : List Agent) (s : State),
    (s.schedule order).dig = s.dig.steps (order.count .dig) ∧
    (s.schedule order).pwr = s.pwr.steps (order.count .pwr)

/-- An operation is a sequence of micro-steps, each one interaction with the environment or one internal update
(spec/00_scope.md R9): a micro-step makes at most one of either kind, touches nothing of the environment's unless it
uses a port, and only the last one clears the busy bit and returns the result (R33, spec/42_power_rail_sequencer.md
R160). Started and then advanced to its end, micro-step by micro-step, it is the operation run whole: a
`launch` step and then enough `advance` steps give what the `command` step gives, a `launchService` step and then
enough `advance` steps what the `service` step gives. An operation with no agent is launched whole. A list of
`advance` steps makes its micro-steps in order. The same is said of the phases an operation can start in. -/
def Obligations.MicroStepsMakeTheOperation : Prop :=
  (∀ d : Dig, d.acts d.micro.1 ≤ 1 ∧
    (d.micro.2 ≠ none ∨ d.micro.1.busy ≠ d.busy →
      ∃ r, d.phase = .ret r ∧ d.micro = ({ d with busy := false, phase := .idle }, r))) ∧
  (∀ p : Pwr, p.acts p.micro.1 ≤ 1 ∧
    (p.micro.1.trace = p.trace → p.micro.1.chip = p.chip ∧ p.micro.1.pgood = p.pgood) ∧
    (p.micro.2 ≠ none ∨ p.micro.1.busy ≠ p.busy →
      ∃ r, p.phase = .ret r ∧ p.micro = ({ p with busy := false, phase := .idle }, some r))) ∧
  (∀ (s : State) (code : Byte) (operands : List Byte) (more : List Move) (i : Instr) (rest : List Byte),
    decode (code :: operands) = .ok i rest →
    (agentOf i = none → step { s with inbox := .launch code operands :: more } =
      step { s with inbox := .command code operands :: more }) ∧
    (∀ (a : Agent) (n : Nat), agentOf i = some a → s.agentIdle a → a.enough ≤ n →
      runSteps (n + 1) { s with inbox := .launch code operands :: (List.replicate n (.advance a) ++ more) } =
        step { s with inbox := .command code operands :: more })) ∧
  (∀ (s : State) (more : List Move) (n : Nat), s.agentIdle .dig → Agent.dig.enough ≤ n →
    runSteps (n + 1) { s with inbox := .launchService :: (List.replicate n (.advance .dig) ++ more) } =
      step { s with inbox := .service :: more }) ∧
  (∀ (s : State) (order : List Agent) (more : List Move),
    runSteps order.length { s with inbox := order.map .advance ++ more } =
      .next ({ s with inbox := more }.schedule order)) ∧
  (∀ (s : State) (ph : DigPhase), s.dig.phase = .idle →
    (s.launchDig ph).schedule (List.replicate ph.bound .dig) = s.runDig ph) ∧
  (∀ (s : State) (ph : PwrPhase), s.pwr.phase = .idle →
    (s.launchPwr ph).schedule (List.replicate Pwr.bound .pwr) = s.runPwr ph)

/-- Every operation ends, whatever the ports answer, and its side is idle after it (spec/20_memory.md R61,
spec/42_power_rail_sequencer.md R180). An operation of a side with one in flight waits for it, a pure one too, and
`SYS.RESET` waits for both sides (R62, R63, spec/93_implementation_defined.md U7, U8). That the wait runs the
operation in flight to its end (log entry 9), and that `QRY.DEC` and `PEN.DEC` wait as well (log entry 30), are the
model's. -/
def Obligations.EveryOperationEnds : Prop :=
  ∀ (s : State) (i : Instr), ∃ t, exec i s = .next t ∧
    (∀ a, sideOf i = some a → t.agentIdle a ∧ exec i (s.settle a) = .next t) ∧
    (sideOf i = none → t.idle ∧ exec i s.settleDig.settlePwr = .next t)

/-- Once latched, the limits change by no step but `SYS.RESET` (spec/10_state.md R22,
spec/40_query_report.md R117). -/
def Obligations.CapsImmutable : Prop :=
  ∀ s t : State, s.Inv → s.dig.caps.valid = true → step s = .next t →
    t.dig.caps = s.dig.caps ∨
      ∃ operands more, s.inbox = .command 0x00 operands :: more ∨ s.inbox = .launch 0x00 operands :: more

/-- While proximity was signalled by the last report, no step but `SYS.RESET` changes the tool kind, and no
micro-step of an operation in flight does (spec/10_state.md R25, spec/41_pen_report.md R139). -/
def Obligations.ToolKindStableInStroke : Prop :=
  (∀ d : Dig, d.tool.prox = true → d.micro.1.tool.kind = d.tool.kind) ∧
  ∀ s t : State, s.dig.phase = .idle → s.dig.tool.prox = true → step s = .next t →
    t.dig.tool.kind = s.dig.tool.kind ∨
      ∃ operands more, s.inbox = .command 0x00 operands :: more ∨ s.inbox = .launch 0x00 operands :: more

/-- While interrupts are disabled no micro-step of an operation in flight, and, while `DIG` is idle, no step reads a
report or starts a service, whatever becomes of the edges (spec/60_exceptions.md R247, spec/20_memory.md R62,
spec/41_pen_report.md R147). -/
def Obligations.NoServiceWhileDisabled : Prop :=
  (∀ d : Dig, d.Inv → d.irqEn = false →
    d.micro.1.phase.servesEdge = false ∧ d.micro.1.reportReads = d.reportReads) ∧
  ∀ s t : State, s.dig.phase = .idle → s.dig.irqEn = false → step s = .next t →
    t.dig.phase.servesEdge = false ∧ t.dig.reportReads = s.dig.reportReads

/-- Between operations the consumer sees the whole sink: every batch is closed by its Commit
(spec/10_state.md R28, spec/20_memory.md R66). -/
def Obligations.SinkWholeBetweenOperations : Prop :=
  ∀ d : Dig, d.Inv → d.phase = .idle → sinkVisible d.sink = d.sink

/-! ### `QRY` -/

/-- `QRY.DEC` answers the little-endian values at the fixed offsets and changes nothing else
(spec/40_query_report.md R111); while `DIG` has an operation in flight it waits for its end, which is
the model's (log entries 9 and 30). -/
def Obligations.QryDecFields : Prop :=
  ∀ (s : State) (q : QueryBuf), (Instr.qryDec q).code = 0x11 ∧ ∃ l : Limits,
    (s.dig.phase = .idle → exec (.qryDec q) s = .next { s with results := s.results ++ [.limits l] }) ∧
    exec (.qryDec q) s = .next { s.settleDig with results := s.settleDig.results ++ [.limits l] } ∧
    l.xMax.toNat = q[3].toNat + 256 * q[4].toNat ∧ l.yMax.toNat = q[5].toNat + 256 * q[6].toNat ∧
    l.pressureMax.toNat = q[11].toNat + 256 * q[12].toNat ∧
    l.fwVersion.toNat = q[13].toNat + 256 * q[14].toNat ∧
    l.distanceMax = q[15] ∧ l.distancePhysicalMax = q[16] ∧
    l.tiltXMax.toNat = q[17].toNat + 256 * q[18].toNat ∧ l.tiltYMax.toNat = q[19].toNat + 256 * q[20].toNat

/-- The synthetic encoder's buffers hold the fill at the undescribed offsets, in order, and decode to the limits
they were made from (R119, spec/30_encoding.md R99). -/
def Obligations.QryRoundTrip : Prop :=
  ∀ (lim : Limits) (fill : Vector Byte 7),
    qryDecode (qryEncode lim fill) = lim ∧
    #v[(qryEncode lim fill)[0], (qryEncode lim fill)[1], (qryEncode lim fill)[2], (qryEncode lim fill)[7],
       (qryEncode lim fill)[8], (qryEncode lim fill)[9], (qryEncode lim fill)[10]] = fill

/-- `QRY.XFER` with an empty latch and both messages completed (R112, R114, R116): the decoded limits are
latched and returned; the trace holds the pulse, if there is a reset control, and one transfer of the two
messages. -/
def Obligations.QryXferLatches : Prop :=
  ∀ (s : State) (rx : QueryBuf), s.dig.phase = .idle → s.dig.caps.valid = false →
    s.dig.nextTransfer = .full rx →
    exec .qryXfer s = .next
      { s with
        dig := { s.dig with
          caps := { valid := true, limits := qryDecode rx }
          busy := false
          transfers := (s.dig.transfers.next Config.freeTransfer).2
          trace := s.dig.trace ++ (if Config.hasReset then [.resetPulse] else []) ++
            [.busTransfer [.write Config.digitizerAddr Config.qryFrame.toList, .read Config.digitizerAddr 21]
              (.full rx)] }
        results := s.results ++ [.limits (qryDecode rx)] }

/-- A failing transfer, and one that completed fewer than two messages, are two distinct errors; `caps` is
unchanged (R115, R112). -/
def Obligations.QryXferErrors : Prop :=
  ∀ s : State, s.dig.phase = .idle → s.dig.caps.valid = false →
    (∀ e, s.dig.nextTransfer = .err e → ∃ t, exec .qryXfer s = .next t ∧
      t.results = s.results ++ [.error (.transport e)] ∧ t.dig.caps = s.dig.caps ∧ t.dig.sink = s.dig.sink ∧
      t.dig.tool = s.dig.tool ∧ t.dig.irqEn = s.dig.irqEn ∧ t.dig.irqPend = s.dig.irqPend ∧ t.pwr = s.pwr) ∧
    (∀ k, s.dig.nextTransfer = .short k → ∃ t, exec .qryXfer s = .next t ∧
      t.results = s.results ++ [.error .protocol] ∧ t.dig.caps = s.dig.caps ∧ t.dig.sink = s.dig.sink ∧
      t.dig.tool = s.dig.tool ∧ t.dig.irqEn = s.dig.irqEn ∧ t.dig.irqPend = s.dig.irqPend ∧ t.pwr = s.pwr)

/-- `QRY.XFER` over a full latch: SequenceError, no port, no state change (R117). -/
def Obligations.QryXferRefusedWhenLatched : Prop :=
  ∀ s : State, s.dig.phase = .idle → s.dig.caps.valid = true →
    exec .qryXfer s = .next
      { s with dig := { s.dig with busy := false }, results := s.results ++ [.error .sequence] }

/-! ### `PEN` and `IRQ` -/

/-- `PEN.DEC` answers the fields at their offsets and the next ToolState, and changes nothing else
(spec/41_pen_report.md R130, R134 to R138). That the tilts are two's complement is PRESUMED
(R89, log entry 25); while `DIG` has an operation in flight it waits for its end, which is the model's (log entries 9
and 30). -/
def Obligations.PenDecFields : Prop :=
  ∀ (s : State) (raw : ReportBuf) (ts : ToolState), (Instr.penDec raw ts).code = 0x21 ∧
    ∃ (p : PenSample) (ts' : ToolState),
    (s.dig.phase = .idle → exec (.penDec raw ts) s = .next { s with results := s.results ++ [.sample p ts'] }) ∧
    exec (.penDec raw ts) s = .next { s.settleDig with results := s.settleDig.results ++ [.sample p ts'] } ∧
    p.touch = raw[3].getLsbD 0 ∧ p.stylusButton1 = raw[3].getLsbD 1 ∧ p.eraser = raw[3].getLsbD 2 ∧
    p.stylusButton2 = raw[3].getLsbD 4 ∧ p.inProximity = raw[3].getLsbD 5 ∧
    p.x.toNat = raw[4].toNat + 256 * raw[5].toNat ∧ p.y.toNat = raw[6].toNat + 256 * raw[7].toNat ∧
    p.pressure.toNat = raw[8].toNat + 256 * raw[9].toNat ∧ p.distance = raw[10] ∧
    p.tiltX = (raw[12] ++ raw[11]).toInt ∧ p.tiltY = (raw[14] ++ raw[13]).toInt ∧
    p.toolKind = ts'.kind ∧ ts'.prox = raw[3].getLsbD 5 ∧
    (ts.prox = true → ts'.kind = ts.kind) ∧
    (ts.prox = false → ts'.kind = if raw[3].getLsbD 2 || raw[3].getLsbD 3 then .rubber else .pen)

/-- Bytes 0, 1, 2 and 15 to 21 and status bits 6 and 7 influence nothing (R143). -/
def Obligations.PenDecIgnores : Prop :=
  ∀ (raw raw' : ReportBuf) (ts : ToolState),
    (∀ (o : Nat) (h : o < 22), 4 ≤ o → o ≤ 14 → raw[o] = raw'[o]) →
    (∀ b : Nat, b ≤ 5 → raw[3].getLsbD b = raw'[3].getLsbD b) →
    penDecode raw ts = penDecode raw' ts

/-- `PEN.IRQ` with a pending edge, interrupts enabled and a successful read (R131, R140): the edge is consumed,
one read is made, `tool` becomes the next ToolState, the twelve fields and one Commit are appended in order, no
result goes to the host, and nothing else changes. That the trace does not show the emissions is the model's (log
entry 31). -/
def Obligations.PenIrqEmitsBatch : Prop :=
  ∀ (s : State) (raw : ReportBuf), s.dig.phase = .idle → s.dig.irqPend = true → s.dig.irqEn = true →
    s.dig.nextRecv = .ok raw →
    ∃ (p : PenSample) (ts : ToolState), penDecode raw s.dig.tool = (p, ts) ∧
      exec .penIrq s = .next
        { s with
          dig := { s.dig with
            tool := ts
            irqPend := false
            busy := false
            reportReads := (s.dig.reportReads.next Config.freeRecv).2
            trace := s.dig.trace ++ [.busRecv Config.digitizerAddr 22 (.ok raw)]
            sink := s.dig.sink ++
              [.field .touch (.flag p.touch), .field .eraser (.flag p.eraser),
               .field .stylusButton1 (.flag p.stylusButton1), .field .stylusButton2 (.flag p.stylusButton2),
               .field .inProximity (.flag p.inProximity), .field .toolKind (.kind p.toolKind),
               .field .x (.axis p.x.toNat), .field .y (.axis p.y.toNat),
               .field .pressure (.axis p.pressure.toNat), .field .distance (.axis p.distance.toNat),
               .field .tiltX (.axis p.tiltX), .field .tiltY (.axis p.tiltY), .commit] } }

/-- A failing report read is swallowed (R133): nothing is emitted, `tool` is unchanged, no result goes to the
host; the edge is served all the same (R144). -/
def Obligations.PenIrqReadErrorSwallowed : Prop :=
  ∀ (s : State) (e : ErrVal), s.dig.phase = .idle → s.dig.irqPend = true → s.dig.irqEn = true →
    s.dig.nextRecv = .err e →
    exec .penIrq s = .next
      { s with dig := { s.dig with
          irqPend := false
          busy := false
          reportReads := (s.dig.reportReads.next Config.freeRecv).2
          trace := s.dig.trace ++ [.busRecv Config.digitizerAddr 22 (.err e)] } }

/-- `PEN.IRQ` starts only with a pending edge and interrupts enabled (R145); without, it is the host's illegal
command (spec/30_encoding.md R98; the model's reading, log entry 19). -/
def Obligations.PenIrqNeedsAnEdge : Prop :=
  ∀ s : State, s.dig.phase = .idle → s.dig.irqPend = false ∨ s.dig.irqEn = false →
    exec .penIrq s = .next { s with results := s.results ++ [.error .illegalCommand] }

/-- `IRQ.EN` (R146): `irq_en <- 1` and `Ok`; a held edge becomes pending (spec/60_exceptions.md R247). -/
def Obligations.IrqEnEffect : Prop :=
  ∀ s : State, s.dig.phase = .idle →
    exec .irqEn s = .next
      { s with
        dig := { s.dig with
          irqEn := true, irqPend := s.dig.irqPend || s.dig.irqHeld, irqHeld := false, busy := false }
        results := s.results ++ [.ok] }

/-- `IRQ.DIS` (R147): `irq_en <- 0` and `Ok`, nothing else; `tool` is not cleared. -/
def Obligations.IrqDisEffect : Prop :=
  ∀ s : State, s.dig.phase = .idle →
    exec .irqDis s = .next
      { s with dig := { s.dig with irqEn := false, busy := false }, results := s.results ++ [.ok] }

/-- An edge (spec/60_exceptions.md R246, R247): pending when interrupts are enabled; held or lost when not;
merged or lost when one is pending already. Nothing else changes. -/
def Obligations.EdgeArrival : Prop :=
  ∀ (s : State) (draw : EdgeDraw) (more : List Move), s.inbox = .edge draw :: more →
    (s.dig.irqEn = true →
      step s = .next { s with inbox := more, dig := { s.dig with irqPend := true } }) ∧
    (s.dig.irqPend = true → step s = .next { s with inbox := more }) ∧
    (s.dig.irqEn = false → s.dig.irqPend = false → draw = .held →
      step s = .next { s with inbox := more, dig := { s.dig with irqHeld := true } }) ∧
    (s.dig.irqEn = false → s.dig.irqPend = false → draw = .lost → step s = .next { s with inbox := more })

/-! ### `RAIL` -/

/-- `RAIL.EN`, power-good first 1 at read `k + 1` (spec/42_power_rail_sequencer.md R161, R163, R165, R169, R181):
`Ok` with `polls = k + 1` after `k` sleeps; the trace is the enable write, `k` reads and sleeps, and the read
of 1. `elapsed` as a draw cut to 32 bits is the model's (log entry 13). -/
def Obligations.RailEnSucceeds : Prop :=
  ∀ (s : State) (k : Nat), s.pwr.phase = .idle → s.pwr.nextRailWrite = .ok → k < 500 →
    (∀ j, j < k → s.pwr.lineAt j = .level false) → s.pwr.lineAt k = .level true →
    ∃ (t : State) (elapsed : BitVec 32),
      exec .railEn s = .next t ∧ t.results = s.results ++ [.enabled elapsed (BitVec.ofNat 9 (k + 1))] ∧
      s.pwr.pollTime k ≤ elapsed.toNat ∧ 1000 * k ≤ elapsed.toNat ∧
      t.pwr.rail = .enabled ∧ t.pwr.iter.toNat = k + 1 ∧ t.pwr.pgLast = true ∧ t.pwr.busy = false ∧
      t.pwr.chip = { s.pwr.chip with railOn := true } ∧
      t.pwr.trace = s.pwr.trace ++ [.railWrite true .ok] ++ s.pwr.pollTrace k ++ [.gpioRead (.level true)]

/-- `RAIL.EN`, 500 reads of 0 (R166, R167, R181): the forced disable and the ramp sleep inside the operation,
then TimeoutError whatever the forced write answered; `rail` is Disabled, the chip's bit what that write left. -/
def Obligations.RailEnTimesOut : Prop :=
  ∀ s : State, s.pwr.phase = .idle → s.pwr.nextRailWrite = .ok →
    (∀ j, j < 500 → s.pwr.lineAt j = .level false) →
    ∃ (t : State) (elapsed : BitVec 32),
      exec .railEn s = .next t ∧ t.results = s.results ++ [.error (.timeout elapsed)] ∧
      s.pwr.pollTime 500 ≤ elapsed.toNat ∧ 500000 ≤ elapsed.toNat ∧
      t.pwr.rail = .disabled ∧ t.pwr.iter.toNat = 500 ∧ t.pwr.pgLast = false ∧ t.pwr.busy = false ∧
      t.pwr.chip = { s.pwr.chip with railOn := writeLeaves s.pwr.secondRailWrite true false } ∧
      t.pwr.trace = s.pwr.trace ++ [.railWrite true .ok] ++ s.pwr.pollTrace 500 ++
        [.railWrite false s.pwr.secondRailWrite, .sleep 30000 35000 (s.pwr.sleepAt 30000 35000 500)]

/-- `RAIL.EN`, a failing read after `k` reads of 0, the 500th among them (R164, spec/60_exceptions.md R249):
GpioReadError at once, no roll-back, `rail` Enabled. -/
def Obligations.RailEnReadError : Prop :=
  ∀ (s : State) (k : Nat) (e : ErrVal), s.pwr.phase = .idle → s.pwr.nextRailWrite = .ok → k < 500 →
    (∀ j, j < k → s.pwr.lineAt j = .level false) → s.pwr.lineAt k = .err e →
    ∃ t : State,
      exec .railEn s = .next t ∧ t.results = s.results ++ [.error (.gpioRead e)] ∧
      t.pwr.rail = .enabled ∧ t.pwr.iter.toNat = k ∧ t.pwr.busy = false ∧
      t.pwr.pgLast = (if k = 0 then s.pwr.pgLast else false) ∧
      t.pwr.chip = { s.pwr.chip with railOn := true } ∧
      t.pwr.trace = s.pwr.trace ++ [.railWrite true .ok] ++ s.pwr.pollTrace k ++ [.gpioRead (.err e)]

/-- `RAIL.EN`, a failing enable write (R162): TransportError at once, no poll, no sleep, `rail`, `iter` and
`pg_last` unchanged, the chip's bit old or new. -/
def Obligations.RailEnWriteError : Prop :=
  ∀ (s : State) (e : ErrVal) (took : Bool), s.pwr.phase = .idle → s.pwr.nextRailWrite = .err e took →
    exec .railEn s = .next
      { s with
        pwr := { s.pwr with
          busy := false
          chip := { s.pwr.chip with railOn := if took then true else s.pwr.chip.railOn }
          railWrites := (s.pwr.railWrites.next Config.freeRailWrite).2
          trace := s.pwr.trace ++ [.railWrite true (.err e took)] }
        results := s.results ++ [.error (.transport e)] }

/-- `RAIL.EN` and `RAIL.STAT` leave the VCOM and fault registers, their ports and the digitizer side alone;
`RAIL.STAT` also leaves `rail` and the whole chip (R177, spec/30_encoding.md R96). -/
def Obligations.PollingFrame : Prop :=
  ∀ s t : State, s.pwr.phase = .idle →
    (exec .railEn s = .next t ∨ exec .railStat s = .next t →
      t.dig = s.dig ∧ t.inbox = s.inbox ∧ t.pwr.chip.vcomL = s.pwr.chip.vcomL ∧
      t.pwr.chip.vcomH = s.pwr.chip.vcomH ∧ t.pwr.chip.fault = s.pwr.chip.fault ∧
      t.pwr.railQueries = s.pwr.railQueries ∧ t.pwr.vcomReads = s.pwr.vcomReads ∧
      t.pwr.faultReads = s.pwr.faultReads ∧ t.pwr.vcomWrites = s.pwr.vcomWrites) ∧
    (exec .railStat s = .next t →
      t.pwr.rail = s.pwr.rail ∧ t.pwr.chip = s.pwr.chip ∧ t.pwr.railWrites = s.pwr.railWrites ∧
      t.pwr.overheads = s.pwr.overheads)

/-- `RAIL.DIS` with a successful write (R170 to R172). -/
def Obligations.RailDisSucceeds : Prop :=
  ∀ s : State, s.pwr.phase = .idle → s.pwr.nextRailWrite = .ok →
    exec .railDis s = .next
      { s with
        pwr := { s.pwr with
          rail := .disabled
          busy := false
          chip := { s.pwr.chip with railOn := false }
          railWrites := (s.pwr.railWrites.next Config.freeRailWrite).2
          sleeps := (s.pwr.sleeps.next Config.freeSleep).2
          trace := s.pwr.trace ++
            [.railWrite false .ok, .sleep 30000 35000 (s.pwr.sleepAt 30000 35000 0)] }
        results := s.results ++ [.ok] }

/-- `RAIL.DIS` with a failing write: the ramp-down sleep all the same (R171), then TransportError, `rail`
unchanged (R172), the chip's bit old or new. -/
def Obligations.RailDisWriteError : Prop :=
  ∀ (s : State) (e : ErrVal) (took : Bool), s.pwr.phase = .idle → s.pwr.nextRailWrite = .err e took →
    exec .railDis s = .next
      { s with
        pwr := { s.pwr with
          busy := false
          chip := { s.pwr.chip with railOn := if took then false else s.pwr.chip.railOn }
          railWrites := (s.pwr.railWrites.next Config.freeRailWrite).2
          sleeps := (s.pwr.sleeps.next Config.freeSleep).2
          trace := s.pwr.trace ++
            [.railWrite false (.err e took), .sleep 30000 35000 (s.pwr.sleepAt 30000 35000 0)] }
        results := s.results ++ [.error (.transport e)] }

/-- Every sleep lasts at least its lower bound and at most its upper one, and every duration in between can be
drawn (spec/70_reset_and_hazards.md R300; whole microseconds, and the upper bound kept, are the model's choice, log
entry 12). -/
def Obligations.SleepWithinBounds : Prop :=
  (∀ (p : Pwr) (lo hi k : Nat), lo ≤ hi → lo ≤ p.sleepAt lo hi k ∧ p.sleepAt lo hi k ≤ hi) ∧
  ∀ lo hi d : Nat, lo ≤ d → d ≤ hi → ∃ overrun, sleepTime lo hi overrun = d

/-- `RAIL.ISEN` (R175): the chip's bit, not `rail`; one query, nothing else changed; a failing query is a
TransportError. -/
def Obligations.RailIsenEffect : Prop :=
  Instr.railIsen.code = 0x32 ∧ ∀ s : State, s.pwr.phase = .idle →
    exec .railIsen s = .next
      { s with
        pwr := { s.pwr with
          busy := false
          railQueries := (s.pwr.railQueries.next Config.freeRailQuery).2
          trace := s.pwr.trace ++ [.railQuery (storedBit s.pwr.nextRailQuery s.pwr.chip.railOn)] }
        results := s.results ++
          [match s.pwr.nextRailQuery with
           | .ok => .bit s.pwr.chip.railOn
           | .err e => .error (.transport e)] }

/-- `RAIL.STAT` (R177, R178): power-good first 1 at read `k + 1` gives 1; 500 reads of 0 give 0 and no error; a
failing read gives GpioReadError at once. `rail` and the chip are unchanged and no write is made. -/
def Obligations.RailStatAnswers : Prop :=
  Instr.railStat.code = 0x33 ∧ ∀ (s : State) (k : Nat), s.pwr.phase = .idle → (∀ j, j < k → s.pwr.lineAt j = .level false) →
    (k < 500 → s.pwr.lineAt k = .level true → ∃ t, exec .railStat s = .next t ∧
      t.results = s.results ++ [.bit true] ∧ t.pwr.iter.toNat = k + 1 ∧ t.pwr.pgLast = true ∧
      t.pwr.rail = s.pwr.rail ∧ t.pwr.chip = s.pwr.chip ∧
      t.pwr.trace = s.pwr.trace ++ s.pwr.pollTrace k ++ [.gpioRead (.level true)]) ∧
    (k = 500 → ∃ t, exec .railStat s = .next t ∧
      t.results = s.results ++ [.bit false] ∧ t.pwr.iter.toNat = 500 ∧ t.pwr.pgLast = false ∧
      t.pwr.rail = s.pwr.rail ∧ t.pwr.chip = s.pwr.chip ∧ t.pwr.trace = s.pwr.trace ++ s.pwr.pollTrace 500) ∧
    (∀ e, k < 500 → s.pwr.lineAt k = .err e → ∃ t, exec .railStat s = .next t ∧
      t.results = s.results ++ [.error (.gpioRead e)] ∧ t.pwr.iter.toNat = k ∧
      t.pwr.pgLast = (if k = 0 then s.pwr.pgLast else false) ∧ t.pwr.rail = s.pwr.rail ∧
      t.pwr.chip = s.pwr.chip ∧ t.pwr.trace = s.pwr.trace ++ s.pwr.pollTrace k ++ [.gpioRead (.err e)])

/-- The RailState transitions of one micro-step, all of them (R168): the six updates, from the states the table names;
and each of these updates comes next only after its event (the answer of a port, a read counted and kept, a sleep
done). -/
def Obligations.RailTransitions : Prop :=
  ∀ p : Pwr, p.Inv →
    (p.micro.1.rail = p.rail ∨
      ((p.rail = .disabled ∨ p.rail = .enabled) ∧ p.phase = .enRail ∧ p.micro.1.rail = .enabling) ∨
      (p.rail = .enabling ∧ ((∃ t, p.phase = .enGood t) ∨ ∃ e, p.phase = .enAbort e) ∧ p.micro.1.rail = .enabled) ∨
      (p.rail = .enabling ∧ (∃ t, p.phase = .enFail t) ∧ p.iter.toNat = 500 ∧ p.micro.1.rail = .failed) ∨
      (p.rail = .failed ∧ (∃ t, p.phase = .forcedRail t) ∧ p.micro.1.rail = .disabled) ∨
      ((p.rail = .disabled ∨ p.rail = .enabled) ∧ p.phase = .disRail ∧ p.micro.1.rail = .disabled)) ∧
    (p.micro.1.phase = .enRail → p.phase = .enWrite ∧ p.nextRailWrite = .ok) ∧
    (∀ t, p.micro.1.phase = .enGood t → p.phase = .enKeep t true) ∧
    (∀ t g, p.micro.1.phase = .enKeep t g → p.phase = .enCount t g) ∧
    (∀ t g, p.micro.1.phase = .enCount t g → p.phase = .enPoll t ∧ p.iter.toNat < 500 ∧ p.lineAt 0 = .level g) ∧
    (∀ e, p.micro.1.phase = .enAbort e → (∃ t, p.phase = .enPoll t) ∧ p.lineAt 0 = .err e) ∧
    (∀ t, p.micro.1.phase = .enFail t → (∃ u, p.phase = .enSleep u) ∧ p.iter.toNat = 500 ∧ p.pgLast = false) ∧
    (∀ t, p.micro.1.phase = .forcedRail t → p.phase = .forcedSleep t) ∧
    (p.micro.1.phase = .disRail → p.phase = .disSleep .ok) ∧
    (∀ w, p.micro.1.phase = .disSleep w → p.phase = .disWrite ∧ p.nextRailWrite = w)

/-- What `RAIL.EN` does on its ports at most (R180): one enable write, at most 500 reads, at most one disable
write, always in at most 1004 primitives; and at least the write. -/
def Obligations.RailEnBounds : Prop :=
  ∀ s t : State, s.pwr.phase = .idle → exec .railEn s = .next t →
    ∃ (w : WriteAnswer) (tr : List PwrPort), t.pwr.trace = s.pwr.trace ++ .railWrite true w :: tr ∧
      tr.countP (fun x => match x with | .railWrite true _ => true | _ => false) = 0 ∧
      tr.countP (fun x => match x with | .gpioRead _ => true | _ => false) ≤ 500 ∧
      tr.countP (fun x => match x with | .railWrite false _ => true | _ => false) ≤ 1 ∧
      (w = .ok → 1 ≤ tr.countP (fun x => match x with | .gpioRead _ => true | _ => false)) ∧
      tr.length ≤ 1002

/-! ### `VCOM` -/

/-- `VCOM.DEC` (spec/43_vcom_codec.md R200): ten times the 9-bit field; bits 7:1 of `high` do not matter. While
`PWR` has an operation in flight it waits (spec/20_memory.md R63); that the wait runs that operation to its end is the
model's (log entry 9). -/
def Obligations.VcomDecValue : Prop :=
  ∀ (s : State) (low high : Byte), (Instr.vcomDec low high).code = 0x40 ∧
    (s.pwr.phase = .idle → exec (.vcomDec low high) s = .next
      { s with results := s.results ++ [.int (10 * (low.toNat + 256 * (high.toNat % 2) : Nat))] }) ∧
    exec (.vcomDec low high) s = .next
      { s.settlePwr with
        results := s.settlePwr.results ++ [.int (10 * (low.toNat + 256 * (high.toNat % 2) : Nat))] }

/-- `VCOM.DECUV` (R201): ten thousand times the same field, not negated. While `PWR` has an operation in flight it
waits (R63); that the wait runs that operation to its end is the model's (log entry 9). -/
def Obligations.VcomDecuvValue : Prop :=
  ∀ (s : State) (low high : Byte), (Instr.vcomDecuv low high).code = 0x41 ∧
    (s.pwr.phase = .idle → exec (.vcomDecuv low high) s = .next
      { s with results := s.results ++ [.int (10000 * (low.toNat + 256 * (high.toNat % 2) : Nat))] }) ∧
    exec (.vcomDecuv low high) s = .next
      { s.settlePwr with
        results := s.settlePwr.results ++ [.int (10000 * (low.toNat + 256 * (high.toNat % 2) : Nat))] }

/-- `VCOM.ENC` (R202): the bytes of `m / 10` for 0 to 5000, RangeError outside. While `PWR` has an operation in
flight it waits (R63); that the wait runs that operation to its end is the model's (log entry 9). -/
def Obligations.VcomEncValue : Prop :=
  ∀ (s : State) (m : Int), (Instr.vcomEnc m).code = 0x42 ∧ ∃ r : Result,
    (s.pwr.phase = .idle → exec (.vcomEnc m) s = .next { s with results := s.results ++ [r] }) ∧
    exec (.vcomEnc m) s = .next { s.settlePwr with results := s.settlePwr.results ++ [r] } ∧
    (0 ≤ m ∧ m ≤ 5000 → r = .pair (BitVec.ofInt 8 (m / 10 % 256)) (BitVec.ofInt 8 (m / 10 / 256))) ∧
    (m < 0 ∨ 5000 < m → r = .error .range)

/-- The round trips of the codec (R203): decoding an encoded magnitude rounds down to a multiple of 10, so a
multiple of 10 comes back as it was; a magnitude outside the range does not encode; a decoded pair in range encodes
to itself but for the ignored bits; a raw field above 500 does not encode. -/
def Obligations.VcomRoundTrips : Prop :=
  (∀ m : Int, 0 ≤ m → m ≤ 5000 →
    ∃ low high, vcomEncode m = some (low, high) ∧ vcomDecode low high = 10 * (m / 10) ∧
      (m % 10 = 0 → vcomDecode low high = m)) ∧
  (∀ m : Int, m < 0 ∨ 5000 < m → vcomEncode m = none) ∧
  (∀ low high : Byte, vcomDecode low high ≤ 5000 →
    vcomEncode (vcomDecode low high) = some (low, high &&& 1)) ∧
  (∀ low high : Byte, 5000 < vcomDecode low high → vcomEncode (vcomDecode low high) = none)

/-- `VCOM.RDMV` (R205): low then high, the negated magnitude; the first failing read ends it. No register
changes. -/
def Obligations.VcomRdmvEffect : Prop :=
  Instr.vcomRdmv.code = 0x43 ∧ ∀ s : State, s.pwr.phase = .idle →
    (s.pwr.nextVcomRead = .ok → s.pwr.secondVcomRead = .ok → ∃ t, exec .vcomRdmv s = .next t ∧
      t.results = s.results ++ [.int (-vcomDecode s.pwr.chip.vcomL s.pwr.chip.vcomH)] ∧
      t.pwr.trace = s.pwr.trace ++ [.regRead .vcomL (.ok s.pwr.chip.vcomL),
        .regRead .vcomH (.ok s.pwr.chip.vcomH)] ∧ t.pwr.chip = s.pwr.chip) ∧
    (∀ e, s.pwr.nextVcomRead = .err e → ∃ t, exec .vcomRdmv s = .next t ∧
      t.results = s.results ++ [.error (.transport e)] ∧
      t.pwr.trace = s.pwr.trace ++ [.regRead .vcomL (.err e)] ∧ t.pwr.chip = s.pwr.chip) ∧
    (∀ e, s.pwr.nextVcomRead = .ok → s.pwr.secondVcomRead = .err e → ∃ t, exec .vcomRdmv s = .next t ∧
      t.results = s.results ++ [.error (.transport e)] ∧
      t.pwr.trace = s.pwr.trace ++ [.regRead .vcomL (.ok s.pwr.chip.vcomL), .regRead .vcomH (.err e)] ∧
      t.pwr.chip = s.pwr.chip)

/-- `VCOM.RDUV` (R206): the same reads, microvolts, not negated. -/
def Obligations.VcomRduvEffect : Prop :=
  Instr.vcomRduv.code = 0x44 ∧ ∀ s : State, s.pwr.phase = .idle →
    (s.pwr.nextVcomRead = .ok → s.pwr.secondVcomRead = .ok → ∃ t, exec .vcomRduv s = .next t ∧
      t.results = s.results ++ [.int (vcomDecodeUv s.pwr.chip.vcomL s.pwr.chip.vcomH)] ∧
      t.pwr.trace = s.pwr.trace ++ [.regRead .vcomL (.ok s.pwr.chip.vcomL),
        .regRead .vcomH (.ok s.pwr.chip.vcomH)] ∧ t.pwr.chip = s.pwr.chip) ∧
    (∀ e, s.pwr.nextVcomRead = .err e → ∃ t, exec .vcomRduv s = .next t ∧
      t.results = s.results ++ [.error (.transport e)] ∧
      t.pwr.trace = s.pwr.trace ++ [.regRead .vcomL (.err e)] ∧ t.pwr.chip = s.pwr.chip) ∧
    (∀ e, s.pwr.nextVcomRead = .ok → s.pwr.secondVcomRead = .err e → ∃ t, exec .vcomRduv s = .next t ∧
      t.results = s.results ++ [.error (.transport e)] ∧
      t.pwr.trace = s.pwr.trace ++ [.regRead .vcomL (.ok s.pwr.chip.vcomL), .regRead .vcomH (.err e)] ∧
      t.pwr.chip = s.pwr.chip)

/-- `VCOM.WRMV` in range with both writes answered (R207): the pair holds the encoding of `-v`. -/
def Obligations.VcomWrmvWrites : Prop :=
  ∀ (s : State) (v : Int), s.pwr.phase = .idle → -5000 ≤ v → v ≤ 0 →
    s.pwr.nextVcomWrite = .ok → s.pwr.secondVcomWrite = .ok →
    ∃ (t : State) (low high : Byte), vcomEncode (-v) = some (low, high) ∧ exec (.vcomWrmv v) s = .next t ∧
      t.results = s.results ++ [.ok] ∧ t.pwr.chip = { s.pwr.chip with vcomL := low, vcomH := high } ∧
      t.pwr.trace = s.pwr.trace ++ [.regWrite .vcomL low .ok, .regWrite .vcomH high .ok]

/-- The errors of `VCOM.WRMV` (R207, spec/60_exceptions.md R255): RangeError before any write; a failing low
write leaves the low byte old or new and makes no high write; a failing high write leaves the low byte new and
the high byte old or new. -/
def Obligations.VcomWrmvErrors : Prop :=
  ∀ (s : State) (v : Int), s.pwr.phase = .idle →
    (v < -5000 ∨ 0 < v → exec (.vcomWrmv v) s = .next
      { s with pwr := { s.pwr with busy := false }, results := s.results ++ [.error .range] }) ∧
    (∀ e took, -5000 ≤ v → v ≤ 0 → s.pwr.nextVcomWrite = .err e took →
      ∃ (t : State) (low high : Byte), vcomEncode (-v) = some (low, high) ∧ exec (.vcomWrmv v) s = .next t ∧
        t.results = s.results ++ [.error (.transport e)] ∧
        t.pwr.chip = { s.pwr.chip with vcomL := if took then low else s.pwr.chip.vcomL } ∧
        t.pwr.trace = s.pwr.trace ++ [.regWrite .vcomL low (.err e took)]) ∧
    (∀ e took, -5000 ≤ v → v ≤ 0 → s.pwr.nextVcomWrite = .ok → s.pwr.secondVcomWrite = .err e took →
      ∃ (t : State) (low high : Byte), vcomEncode (-v) = some (low, high) ∧ exec (.vcomWrmv v) s = .next t ∧
        t.results = s.results ++ [.error (.transport e)] ∧
        t.pwr.chip = { s.pwr.chip with
          vcomL := low, vcomH := if took then high else s.pwr.chip.vcomH } ∧
        t.pwr.trace = s.pwr.trace ++ [.regWrite .vcomL low .ok, .regWrite .vcomH high (.err e took)])

/-- `VCOM.RDMV`, `VCOM.RDUV` and `VCOM.WRMV` leave the sequencer, the rail bit, the fault register, the line and
the digitizer side alone (spec/30_encoding.md R96). -/
def Obligations.VcomFrame : Prop :=
  ∀ (s t : State) (v : Int), s.pwr.phase = .idle →
    exec .vcomRdmv s = .next t ∨ exec .vcomRduv s = .next t ∨ exec (.vcomWrmv v) s = .next t →
    t.dig = s.dig ∧ t.inbox = s.inbox ∧ t.pwr.rail = s.pwr.rail ∧ t.pwr.iter = s.pwr.iter ∧
    t.pwr.pgLast = s.pwr.pgLast ∧ t.pwr.chip.railOn = s.pwr.chip.railOn ∧
    t.pwr.chip.fault = s.pwr.chip.fault ∧ t.pwr.pgood = s.pwr.pgood ∧ t.pwr.busy = false

/-- Read after write (R208): with no failing access, `VCOM.RDMV` after `VCOM.WRMV v` gives `v` rounded toward
zero to a multiple of 10, and `VCOM.RDUV` a thousand times its magnitude. It rests on the registers being plain
storage, the spec's assumption (log entry 15). -/
def Obligations.VcomReadAfterWrite : Prop :=
  ∀ (s : State) (v : Int), s.pwr.phase = .idle → -5000 ≤ v → v ≤ 0 →
    s.pwr.nextVcomWrite = .ok → s.pwr.secondVcomWrite = .ok →
    s.pwr.nextVcomRead = .ok → s.pwr.secondVcomRead = .ok →
    ∃ t u u' : State, exec (.vcomWrmv v) s = .next t ∧ exec .vcomRdmv t = .next u ∧
      exec .vcomRduv t = .next u' ∧ u.results = t.results ++ [.int (-(10 * (-v / 10)))] ∧
      u'.results = t.results ++ [.int (10000 * (-v / 10))]

/-! ### `FLT` -/

/-- `FLT.STATE` (spec/44_fault_status.md R231): one read; the upper seven bits, an error from 16 on. Nothing else
changes but the record of the volatile register. -/
def Obligations.FltStateEffect : Prop :=
  Instr.fltState.code = 0x50 ∧ ∀ s : State, s.pwr.phase = .idle → ∃ t, exec .fltState s = .next t ∧
    t.pwr.trace = s.pwr.trace ++ [.regRead .fault s.pwr.nextFaultRead] ∧
    (∀ v, s.pwr.nextFaultRead = .ok v → ∃ idx : BitVec 7, idx.toNat = v.toNat / 2 ∧
      t.results = s.results ++ [if v.toNat < 32 then .index idx else .error (.statusIndex idx)]) ∧
    (∀ e, s.pwr.nextFaultRead = .err e → t.results = s.results ++ [.error (.transport e)]) ∧
    t.dig = s.dig ∧ t.inbox = s.inbox ∧ t.pwr.rail = s.pwr.rail ∧ t.pwr.iter = s.pwr.iter ∧
    t.pwr.pgLast = s.pwr.pgLast ∧ t.pwr.pgood = s.pwr.pgood ∧ t.pwr.busy = false ∧
    t.pwr.chip.vcomL = s.pwr.chip.vcomL ∧ t.pwr.chip.vcomH = s.pwr.chip.vcomH ∧
    t.pwr.chip.railOn = s.pwr.chip.railOn

/-- `FLT.PG` (R232): one read, bit 0; never a StatusIndexError. Nothing else changes but the record of the volatile
register. -/
def Obligations.FltPgEffect : Prop :=
  Instr.fltPg.code = 0x51 ∧ ∀ s : State, s.pwr.phase = .idle → ∃ t, exec .fltPg s = .next t ∧
    t.pwr.trace = s.pwr.trace ++ [.regRead .fault s.pwr.nextFaultRead] ∧
    (∀ v, s.pwr.nextFaultRead = .ok v → t.results = s.results ++ [.bit (v.getLsbD 0)]) ∧
    (∀ e, s.pwr.nextFaultRead = .err e → t.results = s.results ++ [.error (.transport e)]) ∧
    t.dig = s.dig ∧ t.inbox = s.inbox ∧ t.pwr.rail = s.pwr.rail ∧ t.pwr.iter = s.pwr.iter ∧
    t.pwr.pgLast = s.pwr.pgLast ∧ t.pwr.pgood = s.pwr.pgood ∧ t.pwr.busy = false ∧
    t.pwr.chip.vcomL = s.pwr.chip.vcomL ∧ t.pwr.chip.vcomH = s.pwr.chip.vcomH ∧
    t.pwr.chip.railOn = s.pwr.chip.railOn

/-! ### The environment's own moves -/

/-- The environment changes the power-good line and the fault register at any time, and no step of its own changes
anything else: not the VCOM pair, not the rail bit, not the sequencer, no port (spec/10_state.md R37, R38,
spec/20_memory.md R69). Their form as moves is the model's (log entries 8 and 20). -/
def Obligations.EnvironmentMoves : Prop :=
  ∀ (s : State) (more : List Move),
    (∀ b, s.inbox = .line b :: more →
      step s = .next { s with inbox := more, pwr := { s.pwr with pgood := b } }) ∧
    (∀ v, s.inbox = .faultReg v :: more →
      step s = .next { s with
        inbox := more, pwr := { s.pwr with chip := { s.pwr.chip with fault := v } } })
end

