-- ==== Sys2Proof/Laws/State.lean ====
section
/-! SUPPORT. What every update of the state does to every field it leaves alone, and to the ones it writes:
one lemma per field per update, each true by computation, so that no proof unfolds a record update. -/

namespace Sys2Proof.Machine

/-! ### The digitizer side -/

@[simp] theorem Dig.resetPulse_caps (d : Dig) : (d.resetPulse).caps = d.caps := rfl
@[simp] theorem Dig.resetPulse_tool (d : Dig) : (d.resetPulse).tool = d.tool := rfl
@[simp] theorem Dig.resetPulse_irqEn (d : Dig) : (d.resetPulse).irqEn = d.irqEn := rfl
@[simp] theorem Dig.resetPulse_irqPend (d : Dig) : (d.resetPulse).irqPend = d.irqPend := rfl
@[simp] theorem Dig.resetPulse_irqHeld (d : Dig) : (d.resetPulse).irqHeld = d.irqHeld := rfl
@[simp] theorem Dig.resetPulse_sink (d : Dig) : (d.resetPulse).sink = d.sink := rfl
@[simp] theorem Dig.resetPulse_busy (d : Dig) : (d.resetPulse).busy = d.busy := rfl
@[simp] theorem Dig.resetPulse_phase (d : Dig) : (d.resetPulse).phase = d.phase := rfl
@[simp] theorem Dig.resetPulse_transfers (d : Dig) : (d.resetPulse).transfers = d.transfers := rfl
@[simp] theorem Dig.resetPulse_reportReads (d : Dig) : (d.resetPulse).reportReads = d.reportReads := rfl
@[simp] theorem Dig.resetPulse_unspec (d : Dig) : (d.resetPulse).unspec = d.unspec := rfl
@[simp] theorem Dig.resetPulse_trace (d : Dig) : (d.resetPulse).trace = d.trace ++ [.resetPulse] := rfl

@[simp] theorem Dig.busTransfer_caps (msgs : List BusMsg) (d : Dig) : ((d.busTransfer msgs).2).caps = d.caps := rfl
@[simp] theorem Dig.busTransfer_tool (msgs : List BusMsg) (d : Dig) : ((d.busTransfer msgs).2).tool = d.tool := rfl
@[simp] theorem Dig.busTransfer_irqEn (msgs : List BusMsg) (d : Dig) : ((d.busTransfer msgs).2).irqEn = d.irqEn := rfl
@[simp] theorem Dig.busTransfer_irqPend (msgs : List BusMsg) (d : Dig) : ((d.busTransfer msgs).2).irqPend = d.irqPend := rfl
@[simp] theorem Dig.busTransfer_irqHeld (msgs : List BusMsg) (d : Dig) : ((d.busTransfer msgs).2).irqHeld = d.irqHeld := rfl
@[simp] theorem Dig.busTransfer_sink (msgs : List BusMsg) (d : Dig) : ((d.busTransfer msgs).2).sink = d.sink := rfl
@[simp] theorem Dig.busTransfer_busy (msgs : List BusMsg) (d : Dig) : ((d.busTransfer msgs).2).busy = d.busy := rfl
@[simp] theorem Dig.busTransfer_phase (msgs : List BusMsg) (d : Dig) : ((d.busTransfer msgs).2).phase = d.phase := rfl
@[simp] theorem Dig.busTransfer_transfers (msgs : List BusMsg) (d : Dig) : ((d.busTransfer msgs).2).transfers = (d.transfers.next Config.freeTransfer).2 := rfl
@[simp] theorem Dig.busTransfer_reportReads (msgs : List BusMsg) (d : Dig) : ((d.busTransfer msgs).2).reportReads = d.reportReads := rfl
@[simp] theorem Dig.busTransfer_unspec (msgs : List BusMsg) (d : Dig) : ((d.busTransfer msgs).2).unspec = d.unspec := rfl
@[simp] theorem Dig.busTransfer_trace (msgs : List BusMsg) (d : Dig) : ((d.busTransfer msgs).2).trace = d.trace ++ [.busTransfer msgs (d.busTransfer msgs).1] := rfl

@[simp] theorem Dig.busRecv_caps (d : Dig) : (d.busRecv.2).caps = d.caps := rfl
@[simp] theorem Dig.busRecv_tool (d : Dig) : (d.busRecv.2).tool = d.tool := rfl
@[simp] theorem Dig.busRecv_irqEn (d : Dig) : (d.busRecv.2).irqEn = d.irqEn := rfl
@[simp] theorem Dig.busRecv_irqPend (d : Dig) : (d.busRecv.2).irqPend = d.irqPend := rfl
@[simp] theorem Dig.busRecv_irqHeld (d : Dig) : (d.busRecv.2).irqHeld = d.irqHeld := rfl
@[simp] theorem Dig.busRecv_sink (d : Dig) : (d.busRecv.2).sink = d.sink := rfl
@[simp] theorem Dig.busRecv_busy (d : Dig) : (d.busRecv.2).busy = d.busy := rfl
@[simp] theorem Dig.busRecv_phase (d : Dig) : (d.busRecv.2).phase = d.phase := rfl
@[simp] theorem Dig.busRecv_transfers (d : Dig) : (d.busRecv.2).transfers = d.transfers := rfl
@[simp] theorem Dig.busRecv_reportReads (d : Dig) : (d.busRecv.2).reportReads = (d.reportReads.next Config.freeRecv).2 := rfl
@[simp] theorem Dig.busRecv_unspec (d : Dig) : (d.busRecv.2).unspec = d.unspec := rfl
@[simp] theorem Dig.busRecv_trace (d : Dig) : (d.busRecv.2).trace = d.trace ++ [.busRecv Config.digitizerAddr Config.penLen d.busRecv.1] := rfl

@[simp] theorem Dig.emit_caps (e : SinkEvent) (d : Dig) : (d.emit e).caps = d.caps := rfl
@[simp] theorem Dig.emit_tool (e : SinkEvent) (d : Dig) : (d.emit e).tool = d.tool := rfl
@[simp] theorem Dig.emit_irqEn (e : SinkEvent) (d : Dig) : (d.emit e).irqEn = d.irqEn := rfl
@[simp] theorem Dig.emit_irqPend (e : SinkEvent) (d : Dig) : (d.emit e).irqPend = d.irqPend := rfl
@[simp] theorem Dig.emit_irqHeld (e : SinkEvent) (d : Dig) : (d.emit e).irqHeld = d.irqHeld := rfl
@[simp] theorem Dig.emit_sink (e : SinkEvent) (d : Dig) : (d.emit e).sink = d.sink ++ [e] := rfl
@[simp] theorem Dig.emit_busy (e : SinkEvent) (d : Dig) : (d.emit e).busy = d.busy := rfl
@[simp] theorem Dig.emit_phase (e : SinkEvent) (d : Dig) : (d.emit e).phase = d.phase := rfl
@[simp] theorem Dig.emit_transfers (e : SinkEvent) (d : Dig) : (d.emit e).transfers = d.transfers := rfl
@[simp] theorem Dig.emit_reportReads (e : SinkEvent) (d : Dig) : (d.emit e).reportReads = d.reportReads := rfl
@[simp] theorem Dig.emit_unspec (e : SinkEvent) (d : Dig) : (d.emit e).unspec = d.unspec := rfl
@[simp] theorem Dig.emit_trace (e : SinkEvent) (d : Dig) : (d.emit e).trace = d.trace := rfl

@[simp] theorem Dig.complete_caps (r : Option Result) (d : Dig) : (d.complete r).caps = d.caps := rfl
@[simp] theorem Dig.complete_tool (r : Option Result) (d : Dig) : (d.complete r).tool = d.tool := rfl
@[simp] theorem Dig.complete_irqEn (r : Option Result) (d : Dig) : (d.complete r).irqEn = d.irqEn := rfl
@[simp] theorem Dig.complete_irqPend (r : Option Result) (d : Dig) : (d.complete r).irqPend = d.irqPend := rfl
@[simp] theorem Dig.complete_irqHeld (r : Option Result) (d : Dig) : (d.complete r).irqHeld = d.irqHeld := rfl
@[simp] theorem Dig.complete_sink (r : Option Result) (d : Dig) : (d.complete r).sink = d.sink := rfl
@[simp] theorem Dig.complete_busy (r : Option Result) (d : Dig) : (d.complete r).busy = d.busy := rfl
@[simp] theorem Dig.complete_phase (r : Option Result) (d : Dig) : (d.complete r).phase = .ret r := rfl
@[simp] theorem Dig.complete_transfers (r : Option Result) (d : Dig) : (d.complete r).transfers = d.transfers := rfl
@[simp] theorem Dig.complete_reportReads (r : Option Result) (d : Dig) : (d.complete r).reportReads = d.reportReads := rfl
@[simp] theorem Dig.complete_unspec (r : Option Result) (d : Dig) : (d.complete r).unspec = d.unspec := rfl
@[simp] theorem Dig.complete_trace (r : Option Result) (d : Dig) : (d.complete r).trace = d.trace := rfl

@[simp] theorem Dig.raise_caps (e : Error) (d : Dig) : (d.raise e).caps = d.caps := rfl
@[simp] theorem Dig.raise_tool (e : Error) (d : Dig) : (d.raise e).tool = d.tool := rfl
@[simp] theorem Dig.raise_irqEn (e : Error) (d : Dig) : (d.raise e).irqEn = d.irqEn := rfl
@[simp] theorem Dig.raise_irqPend (e : Error) (d : Dig) : (d.raise e).irqPend = d.irqPend := rfl
@[simp] theorem Dig.raise_irqHeld (e : Error) (d : Dig) : (d.raise e).irqHeld = d.irqHeld := rfl
@[simp] theorem Dig.raise_sink (e : Error) (d : Dig) : (d.raise e).sink = d.sink := rfl
@[simp] theorem Dig.raise_busy (e : Error) (d : Dig) : (d.raise e).busy = d.busy := rfl
@[simp] theorem Dig.raise_phase (e : Error) (d : Dig) : (d.raise e).phase = .ret (some (.error e)) := rfl
@[simp] theorem Dig.raise_transfers (e : Error) (d : Dig) : (d.raise e).transfers = d.transfers := rfl
@[simp] theorem Dig.raise_reportReads (e : Error) (d : Dig) : (d.raise e).reportReads = d.reportReads := rfl
@[simp] theorem Dig.raise_unspec (e : Error) (d : Dig) : (d.raise e).unspec = d.unspec := rfl
@[simp] theorem Dig.raise_trace (e : Error) (d : Dig) : (d.raise e).trace = d.trace := rfl

@[simp] theorem Dig.leave_caps (r : Option Result) (d : Dig) : ((d.leave r).1).caps = d.caps := rfl
@[simp] theorem Dig.leave_tool (r : Option Result) (d : Dig) : ((d.leave r).1).tool = d.tool := rfl
@[simp] theorem Dig.leave_irqEn (r : Option Result) (d : Dig) : ((d.leave r).1).irqEn = d.irqEn := rfl
@[simp] theorem Dig.leave_irqPend (r : Option Result) (d : Dig) : ((d.leave r).1).irqPend = d.irqPend := rfl
@[simp] theorem Dig.leave_irqHeld (r : Option Result) (d : Dig) : ((d.leave r).1).irqHeld = d.irqHeld := rfl
@[simp] theorem Dig.leave_sink (r : Option Result) (d : Dig) : ((d.leave r).1).sink = d.sink := rfl
@[simp] theorem Dig.leave_busy (r : Option Result) (d : Dig) : ((d.leave r).1).busy = false := rfl
@[simp] theorem Dig.leave_phase (r : Option Result) (d : Dig) : ((d.leave r).1).phase = .idle := rfl
@[simp] theorem Dig.leave_transfers (r : Option Result) (d : Dig) : ((d.leave r).1).transfers = d.transfers := rfl
@[simp] theorem Dig.leave_reportReads (r : Option Result) (d : Dig) : ((d.leave r).1).reportReads = d.reportReads := rfl
@[simp] theorem Dig.leave_unspec (r : Option Result) (d : Dig) : ((d.leave r).1).unspec = d.unspec := rfl
@[simp] theorem Dig.leave_trace (r : Option Result) (d : Dig) : ((d.leave r).1).trace = d.trace := rfl

@[simp] theorem Dig.goto_caps (ph : DigPhase) (d : Dig) : (d.goto ph).caps = d.caps := rfl
@[simp] theorem Dig.goto_tool (ph : DigPhase) (d : Dig) : (d.goto ph).tool = d.tool := rfl
@[simp] theorem Dig.goto_irqEn (ph : DigPhase) (d : Dig) : (d.goto ph).irqEn = d.irqEn := rfl
@[simp] theorem Dig.goto_irqPend (ph : DigPhase) (d : Dig) : (d.goto ph).irqPend = d.irqPend := rfl
@[simp] theorem Dig.goto_irqHeld (ph : DigPhase) (d : Dig) : (d.goto ph).irqHeld = d.irqHeld := rfl
@[simp] theorem Dig.goto_sink (ph : DigPhase) (d : Dig) : (d.goto ph).sink = d.sink := rfl
@[simp] theorem Dig.goto_busy (ph : DigPhase) (d : Dig) : (d.goto ph).busy = d.busy := rfl
@[simp] theorem Dig.goto_phase (ph : DigPhase) (d : Dig) : (d.goto ph).phase = ph := rfl
@[simp] theorem Dig.goto_transfers (ph : DigPhase) (d : Dig) : (d.goto ph).transfers = d.transfers := rfl
@[simp] theorem Dig.goto_reportReads (ph : DigPhase) (d : Dig) : (d.goto ph).reportReads = d.reportReads := rfl
@[simp] theorem Dig.goto_unspec (ph : DigPhase) (d : Dig) : (d.goto ph).unspec = d.unspec := rfl
@[simp] theorem Dig.goto_trace (ph : DigPhase) (d : Dig) : (d.goto ph).trace = d.trace := rfl

@[simp] theorem Dig.start_caps (ph : DigPhase) (d : Dig) : (d.start ph).caps = d.caps := rfl
@[simp] theorem Dig.start_tool (ph : DigPhase) (d : Dig) : (d.start ph).tool = d.tool := rfl
@[simp] theorem Dig.start_irqEn (ph : DigPhase) (d : Dig) : (d.start ph).irqEn = d.irqEn := rfl
@[simp] theorem Dig.start_irqPend (ph : DigPhase) (d : Dig) : (d.start ph).irqPend = d.irqPend := rfl
@[simp] theorem Dig.start_irqHeld (ph : DigPhase) (d : Dig) : (d.start ph).irqHeld = d.irqHeld := rfl
@[simp] theorem Dig.start_sink (ph : DigPhase) (d : Dig) : (d.start ph).sink = d.sink := rfl
@[simp] theorem Dig.start_busy (ph : DigPhase) (d : Dig) : (d.start ph).busy = true := rfl
@[simp] theorem Dig.start_phase (ph : DigPhase) (d : Dig) : (d.start ph).phase = ph := rfl
@[simp] theorem Dig.start_transfers (ph : DigPhase) (d : Dig) : (d.start ph).transfers = d.transfers := rfl
@[simp] theorem Dig.start_reportReads (ph : DigPhase) (d : Dig) : (d.start ph).reportReads = d.reportReads := rfl
@[simp] theorem Dig.start_unspec (ph : DigPhase) (d : Dig) : (d.start ph).unspec = d.unspec := rfl
@[simp] theorem Dig.start_trace (ph : DigPhase) (d : Dig) : (d.start ph).trace = d.trace := rfl

@[simp] theorem Dig.openGate_caps (d : Dig) : (d.openGate).caps = d.caps := rfl
@[simp] theorem Dig.openGate_tool (d : Dig) : (d.openGate).tool = d.tool := rfl
@[simp] theorem Dig.openGate_irqEn (d : Dig) : (d.openGate).irqEn = true := rfl
@[simp] theorem Dig.openGate_irqPend (d : Dig) : (d.openGate).irqPend = (d.irqPend || d.irqHeld) := rfl
@[simp] theorem Dig.openGate_irqHeld (d : Dig) : (d.openGate).irqHeld = false := rfl
@[simp] theorem Dig.openGate_sink (d : Dig) : (d.openGate).sink = d.sink := rfl
@[simp] theorem Dig.openGate_busy (d : Dig) : (d.openGate).busy = d.busy := rfl
@[simp] theorem Dig.openGate_phase (d : Dig) : (d.openGate).phase = d.phase := rfl
@[simp] theorem Dig.openGate_transfers (d : Dig) : (d.openGate).transfers = d.transfers := rfl
@[simp] theorem Dig.openGate_reportReads (d : Dig) : (d.openGate).reportReads = d.reportReads := rfl
@[simp] theorem Dig.openGate_unspec (d : Dig) : (d.openGate).unspec = d.unspec := rfl
@[simp] theorem Dig.openGate_trace (d : Dig) : (d.openGate).trace = d.trace := rfl

@[simp] theorem Dig.closeGate_caps (d : Dig) : (d.closeGate).caps = d.caps := rfl
@[simp] theorem Dig.closeGate_tool (d : Dig) : (d.closeGate).tool = d.tool := rfl
@[simp] theorem Dig.closeGate_irqEn (d : Dig) : (d.closeGate).irqEn = false := rfl
@[simp] theorem Dig.closeGate_irqPend (d : Dig) : (d.closeGate).irqPend = d.irqPend := rfl
@[simp] theorem Dig.closeGate_irqHeld (d : Dig) : (d.closeGate).irqHeld = d.irqHeld := rfl
@[simp] theorem Dig.closeGate_sink (d : Dig) : (d.closeGate).sink = d.sink := rfl
@[simp] theorem Dig.closeGate_busy (d : Dig) : (d.closeGate).busy = d.busy := rfl
@[simp] theorem Dig.closeGate_phase (d : Dig) : (d.closeGate).phase = d.phase := rfl
@[simp] theorem Dig.closeGate_transfers (d : Dig) : (d.closeGate).transfers = d.transfers := rfl
@[simp] theorem Dig.closeGate_reportReads (d : Dig) : (d.closeGate).reportReads = d.reportReads := rfl
@[simp] theorem Dig.closeGate_unspec (d : Dig) : (d.closeGate).unspec = d.unspec := rfl
@[simp] theorem Dig.closeGate_trace (d : Dig) : (d.closeGate).trace = d.trace := rfl

@[simp] theorem Dig.systemReset_caps (d : Dig) : (d.systemReset).caps = Caps.mk false (Config.freeLimits d.unspec) := rfl
@[simp] theorem Dig.systemReset_tool (d : Dig) : (d.systemReset).tool = ToolState.mk false (Config.freeKind d.unspec) := rfl
@[simp] theorem Dig.systemReset_irqEn (d : Dig) : (d.systemReset).irqEn = false := rfl
@[simp] theorem Dig.systemReset_irqPend (d : Dig) : (d.systemReset).irqPend = false := rfl
@[simp] theorem Dig.systemReset_irqHeld (d : Dig) : (d.systemReset).irqHeld = d.irqHeld := rfl
@[simp] theorem Dig.systemReset_sink (d : Dig) : (d.systemReset).sink = [] := rfl
@[simp] theorem Dig.systemReset_busy (d : Dig) : (d.systemReset).busy = false := rfl
@[simp] theorem Dig.systemReset_phase (d : Dig) : (d.systemReset).phase = .idle := rfl
@[simp] theorem Dig.systemReset_transfers (d : Dig) : (d.systemReset).transfers = d.transfers := rfl
@[simp] theorem Dig.systemReset_reportReads (d : Dig) : (d.systemReset).reportReads = d.reportReads := rfl
@[simp] theorem Dig.systemReset_unspec (d : Dig) : (d.systemReset).unspec = d.unspec + 1 := rfl
@[simp] theorem Dig.systemReset_trace (d : Dig) : (d.systemReset).trace = d.trace := rfl

/-! ### The power side -/

@[simp] theorem Pwr.railWrite_rail (on : Bool) (p : Pwr) : ((p.railWrite on).2).rail = p.rail := rfl
@[simp] theorem Pwr.railWrite_iter (on : Bool) (p : Pwr) : ((p.railWrite on).2).iter = p.iter := rfl
@[simp] theorem Pwr.railWrite_pgLast (on : Bool) (p : Pwr) : ((p.railWrite on).2).pgLast = p.pgLast := rfl
@[simp] theorem Pwr.railWrite_busy (on : Bool) (p : Pwr) : ((p.railWrite on).2).busy = p.busy := rfl
@[simp] theorem Pwr.railWrite_chip (on : Bool) (p : Pwr) : ((p.railWrite on).2).chip = { p.chip with railOn := writeLeaves (p.railWrite on).1 p.chip.railOn on } := rfl
@[simp] theorem Pwr.railWrite_pgood (on : Bool) (p : Pwr) : ((p.railWrite on).2).pgood = p.pgood := rfl
@[simp] theorem Pwr.railWrite_phase (on : Bool) (p : Pwr) : ((p.railWrite on).2).phase = p.phase := rfl
@[simp] theorem Pwr.railWrite_railWrites (on : Bool) (p : Pwr) : ((p.railWrite on).2).railWrites = (p.railWrites.next Config.freeRailWrite).2 := rfl
@[simp] theorem Pwr.railWrite_railQueries (on : Bool) (p : Pwr) : ((p.railWrite on).2).railQueries = p.railQueries := rfl
@[simp] theorem Pwr.railWrite_lineReads (on : Bool) (p : Pwr) : ((p.railWrite on).2).lineReads = p.lineReads := rfl
@[simp] theorem Pwr.railWrite_sleeps (on : Bool) (p : Pwr) : ((p.railWrite on).2).sleeps = p.sleeps := rfl
@[simp] theorem Pwr.railWrite_vcomReads (on : Bool) (p : Pwr) : ((p.railWrite on).2).vcomReads = p.vcomReads := rfl
@[simp] theorem Pwr.railWrite_faultReads (on : Bool) (p : Pwr) : ((p.railWrite on).2).faultReads = p.faultReads := rfl
@[simp] theorem Pwr.railWrite_vcomWrites (on : Bool) (p : Pwr) : ((p.railWrite on).2).vcomWrites = p.vcomWrites := rfl
@[simp] theorem Pwr.railWrite_overheads (on : Bool) (p : Pwr) : ((p.railWrite on).2).overheads = p.overheads := rfl
@[simp] theorem Pwr.railWrite_trace (on : Bool) (p : Pwr) : ((p.railWrite on).2).trace = p.trace ++ [.railWrite on (p.railWrite on).1] := rfl

@[simp] theorem Pwr.railQuery_rail (p : Pwr) : (p.railQuery.2).rail = p.rail := rfl
@[simp] theorem Pwr.railQuery_iter (p : Pwr) : (p.railQuery.2).iter = p.iter := rfl
@[simp] theorem Pwr.railQuery_pgLast (p : Pwr) : (p.railQuery.2).pgLast = p.pgLast := rfl
@[simp] theorem Pwr.railQuery_busy (p : Pwr) : (p.railQuery.2).busy = p.busy := rfl
@[simp] theorem Pwr.railQuery_chip (p : Pwr) : (p.railQuery.2).chip = p.chip := rfl
@[simp] theorem Pwr.railQuery_pgood (p : Pwr) : (p.railQuery.2).pgood = p.pgood := rfl
@[simp] theorem Pwr.railQuery_phase (p : Pwr) : (p.railQuery.2).phase = p.phase := rfl
@[simp] theorem Pwr.railQuery_railWrites (p : Pwr) : (p.railQuery.2).railWrites = p.railWrites := rfl
@[simp] theorem Pwr.railQuery_railQueries (p : Pwr) : (p.railQuery.2).railQueries = (p.railQueries.next Config.freeRailQuery).2 := rfl
@[simp] theorem Pwr.railQuery_lineReads (p : Pwr) : (p.railQuery.2).lineReads = p.lineReads := rfl
@[simp] theorem Pwr.railQuery_sleeps (p : Pwr) : (p.railQuery.2).sleeps = p.sleeps := rfl
@[simp] theorem Pwr.railQuery_vcomReads (p : Pwr) : (p.railQuery.2).vcomReads = p.vcomReads := rfl
@[simp] theorem Pwr.railQuery_faultReads (p : Pwr) : (p.railQuery.2).faultReads = p.faultReads := rfl
@[simp] theorem Pwr.railQuery_vcomWrites (p : Pwr) : (p.railQuery.2).vcomWrites = p.vcomWrites := rfl
@[simp] theorem Pwr.railQuery_overheads (p : Pwr) : (p.railQuery.2).overheads = p.overheads := rfl
@[simp] theorem Pwr.railQuery_trace (p : Pwr) : (p.railQuery.2).trace = p.trace ++ [.railQuery (storedBit p.railQuery.1 p.chip.railOn)] := rfl

@[simp] theorem Pwr.gpioRead_rail (p : Pwr) : (p.gpioRead.2).rail = p.rail := rfl
@[simp] theorem Pwr.gpioRead_iter (p : Pwr) : (p.gpioRead.2).iter = p.iter := rfl
@[simp] theorem Pwr.gpioRead_pgLast (p : Pwr) : (p.gpioRead.2).pgLast = p.pgLast := rfl
@[simp] theorem Pwr.gpioRead_busy (p : Pwr) : (p.gpioRead.2).busy = p.busy := rfl
@[simp] theorem Pwr.gpioRead_chip (p : Pwr) : (p.gpioRead.2).chip = p.chip := rfl
@[simp] theorem Pwr.gpioRead_pgood (p : Pwr) : (p.gpioRead.2).pgood = lineAfter p.gpioRead.1 p.pgood := rfl
@[simp] theorem Pwr.gpioRead_phase (p : Pwr) : (p.gpioRead.2).phase = p.phase := rfl
@[simp] theorem Pwr.gpioRead_railWrites (p : Pwr) : (p.gpioRead.2).railWrites = p.railWrites := rfl
@[simp] theorem Pwr.gpioRead_railQueries (p : Pwr) : (p.gpioRead.2).railQueries = p.railQueries := rfl
@[simp] theorem Pwr.gpioRead_lineReads (p : Pwr) : (p.gpioRead.2).lineReads = (p.lineReads.next Config.freeLine).2 := rfl
@[simp] theorem Pwr.gpioRead_sleeps (p : Pwr) : (p.gpioRead.2).sleeps = p.sleeps := rfl
@[simp] theorem Pwr.gpioRead_vcomReads (p : Pwr) : (p.gpioRead.2).vcomReads = p.vcomReads := rfl
@[simp] theorem Pwr.gpioRead_faultReads (p : Pwr) : (p.gpioRead.2).faultReads = p.faultReads := rfl
@[simp] theorem Pwr.gpioRead_vcomWrites (p : Pwr) : (p.gpioRead.2).vcomWrites = p.vcomWrites := rfl
@[simp] theorem Pwr.gpioRead_overheads (p : Pwr) : (p.gpioRead.2).overheads = p.overheads := rfl
@[simp] theorem Pwr.gpioRead_trace (p : Pwr) : (p.gpioRead.2).trace = p.trace ++ [.gpioRead p.gpioRead.1] := rfl

@[simp] theorem Pwr.sleep_rail (lo hi : Nat) (p : Pwr) : ((p.sleep lo hi).2).rail = p.rail := rfl
@[simp] theorem Pwr.sleep_iter (lo hi : Nat) (p : Pwr) : ((p.sleep lo hi).2).iter = p.iter := rfl
@[simp] theorem Pwr.sleep_pgLast (lo hi : Nat) (p : Pwr) : ((p.sleep lo hi).2).pgLast = p.pgLast := rfl
@[simp] theorem Pwr.sleep_busy (lo hi : Nat) (p : Pwr) : ((p.sleep lo hi).2).busy = p.busy := rfl
@[simp] theorem Pwr.sleep_chip (lo hi : Nat) (p : Pwr) : ((p.sleep lo hi).2).chip = p.chip := rfl
@[simp] theorem Pwr.sleep_pgood (lo hi : Nat) (p : Pwr) : ((p.sleep lo hi).2).pgood = p.pgood := rfl
@[simp] theorem Pwr.sleep_phase (lo hi : Nat) (p : Pwr) : ((p.sleep lo hi).2).phase = p.phase := rfl
@[simp] theorem Pwr.sleep_railWrites (lo hi : Nat) (p : Pwr) : ((p.sleep lo hi).2).railWrites = p.railWrites := rfl
@[simp] theorem Pwr.sleep_railQueries (lo hi : Nat) (p : Pwr) : ((p.sleep lo hi).2).railQueries = p.railQueries := rfl
@[simp] theorem Pwr.sleep_lineReads (lo hi : Nat) (p : Pwr) : ((p.sleep lo hi).2).lineReads = p.lineReads := rfl
@[simp] theorem Pwr.sleep_sleeps (lo hi : Nat) (p : Pwr) : ((p.sleep lo hi).2).sleeps = (p.sleeps.next Config.freeSleep).2 := rfl
@[simp] theorem Pwr.sleep_vcomReads (lo hi : Nat) (p : Pwr) : ((p.sleep lo hi).2).vcomReads = p.vcomReads := rfl
@[simp] theorem Pwr.sleep_faultReads (lo hi : Nat) (p : Pwr) : ((p.sleep lo hi).2).faultReads = p.faultReads := rfl
@[simp] theorem Pwr.sleep_vcomWrites (lo hi : Nat) (p : Pwr) : ((p.sleep lo hi).2).vcomWrites = p.vcomWrites := rfl
@[simp] theorem Pwr.sleep_overheads (lo hi : Nat) (p : Pwr) : ((p.sleep lo hi).2).overheads = p.overheads := rfl
@[simp] theorem Pwr.sleep_trace (lo hi : Nat) (p : Pwr) : ((p.sleep lo hi).2).trace = p.trace ++ [.sleep lo hi (p.sleep lo hi).1] := rfl

@[simp] theorem Pwr.readVcomL_rail (p : Pwr) : (p.readVcomL.2).rail = p.rail := rfl
@[simp] theorem Pwr.readVcomL_iter (p : Pwr) : (p.readVcomL.2).iter = p.iter := rfl
@[simp] theorem Pwr.readVcomL_pgLast (p : Pwr) : (p.readVcomL.2).pgLast = p.pgLast := rfl
@[simp] theorem Pwr.readVcomL_busy (p : Pwr) : (p.readVcomL.2).busy = p.busy := rfl
@[simp] theorem Pwr.readVcomL_chip (p : Pwr) : (p.readVcomL.2).chip = p.chip := rfl
@[simp] theorem Pwr.readVcomL_pgood (p : Pwr) : (p.readVcomL.2).pgood = p.pgood := rfl
@[simp] theorem Pwr.readVcomL_phase (p : Pwr) : (p.readVcomL.2).phase = p.phase := rfl
@[simp] theorem Pwr.readVcomL_railWrites (p : Pwr) : (p.readVcomL.2).railWrites = p.railWrites := rfl
@[simp] theorem Pwr.readVcomL_railQueries (p : Pwr) : (p.readVcomL.2).railQueries = p.railQueries := rfl
@[simp] theorem Pwr.readVcomL_lineReads (p : Pwr) : (p.readVcomL.2).lineReads = p.lineReads := rfl
@[simp] theorem Pwr.readVcomL_sleeps (p : Pwr) : (p.readVcomL.2).sleeps = p.sleeps := rfl
@[simp] theorem Pwr.readVcomL_vcomReads (p : Pwr) : (p.readVcomL.2).vcomReads = (p.vcomReads.next Config.freeVcomRead).2 := rfl
@[simp] theorem Pwr.readVcomL_faultReads (p : Pwr) : (p.readVcomL.2).faultReads = p.faultReads := rfl
@[simp] theorem Pwr.readVcomL_vcomWrites (p : Pwr) : (p.readVcomL.2).vcomWrites = p.vcomWrites := rfl
@[simp] theorem Pwr.readVcomL_overheads (p : Pwr) : (p.readVcomL.2).overheads = p.overheads := rfl
@[simp] theorem Pwr.readVcomL_trace (p : Pwr) : (p.readVcomL.2).trace = p.trace ++ [.regRead .vcomL p.readVcomL.1] := rfl

@[simp] theorem Pwr.readVcomH_rail (p : Pwr) : (p.readVcomH.2).rail = p.rail := rfl
@[simp] theorem Pwr.readVcomH_iter (p : Pwr) : (p.readVcomH.2).iter = p.iter := rfl
@[simp] theorem Pwr.readVcomH_pgLast (p : Pwr) : (p.readVcomH.2).pgLast = p.pgLast := rfl
@[simp] theorem Pwr.readVcomH_busy (p : Pwr) : (p.readVcomH.2).busy = p.busy := rfl
@[simp] theorem Pwr.readVcomH_chip (p : Pwr) : (p.readVcomH.2).chip = p.chip := rfl
@[simp] theorem Pwr.readVcomH_pgood (p : Pwr) : (p.readVcomH.2).pgood = p.pgood := rfl
@[simp] theorem Pwr.readVcomH_phase (p : Pwr) : (p.readVcomH.2).phase = p.phase := rfl
@[simp] theorem Pwr.readVcomH_railWrites (p : Pwr) : (p.readVcomH.2).railWrites = p.railWrites := rfl
@[simp] theorem Pwr.readVcomH_railQueries (p : Pwr) : (p.readVcomH.2).railQueries = p.railQueries := rfl
@[simp] theorem Pwr.readVcomH_lineReads (p : Pwr) : (p.readVcomH.2).lineReads = p.lineReads := rfl
@[simp] theorem Pwr.readVcomH_sleeps (p : Pwr) : (p.readVcomH.2).sleeps = p.sleeps := rfl
@[simp] theorem Pwr.readVcomH_vcomReads (p : Pwr) : (p.readVcomH.2).vcomReads = (p.vcomReads.next Config.freeVcomRead).2 := rfl
@[simp] theorem Pwr.readVcomH_faultReads (p : Pwr) : (p.readVcomH.2).faultReads = p.faultReads := rfl
@[simp] theorem Pwr.readVcomH_vcomWrites (p : Pwr) : (p.readVcomH.2).vcomWrites = p.vcomWrites := rfl
@[simp] theorem Pwr.readVcomH_overheads (p : Pwr) : (p.readVcomH.2).overheads = p.overheads := rfl
@[simp] theorem Pwr.readVcomH_trace (p : Pwr) : (p.readVcomH.2).trace = p.trace ++ [.regRead .vcomH p.readVcomH.1] := rfl

@[simp] theorem Pwr.readFault_rail (p : Pwr) : (p.readFault.2).rail = p.rail := rfl
@[simp] theorem Pwr.readFault_iter (p : Pwr) : (p.readFault.2).iter = p.iter := rfl
@[simp] theorem Pwr.readFault_pgLast (p : Pwr) : (p.readFault.2).pgLast = p.pgLast := rfl
@[simp] theorem Pwr.readFault_busy (p : Pwr) : (p.readFault.2).busy = p.busy := rfl
@[simp] theorem Pwr.readFault_chip (p : Pwr) : (p.readFault.2).chip = { p.chip with fault := faultAfter p.readFault.1 p.chip.fault } := rfl
@[simp] theorem Pwr.readFault_pgood (p : Pwr) : (p.readFault.2).pgood = p.pgood := rfl
@[simp] theorem Pwr.readFault_phase (p : Pwr) : (p.readFault.2).phase = p.phase := rfl
@[simp] theorem Pwr.readFault_railWrites (p : Pwr) : (p.readFault.2).railWrites = p.railWrites := rfl
@[simp] theorem Pwr.readFault_railQueries (p : Pwr) : (p.readFault.2).railQueries = p.railQueries := rfl
@[simp] theorem Pwr.readFault_lineReads (p : Pwr) : (p.readFault.2).lineReads = p.lineReads := rfl
@[simp] theorem Pwr.readFault_sleeps (p : Pwr) : (p.readFault.2).sleeps = p.sleeps := rfl
@[simp] theorem Pwr.readFault_vcomReads (p : Pwr) : (p.readFault.2).vcomReads = p.vcomReads := rfl
@[simp] theorem Pwr.readFault_faultReads (p : Pwr) : (p.readFault.2).faultReads = (p.faultReads.next Config.freeFaultRead).2 := rfl
@[simp] theorem Pwr.readFault_vcomWrites (p : Pwr) : (p.readFault.2).vcomWrites = p.vcomWrites := rfl
@[simp] theorem Pwr.readFault_overheads (p : Pwr) : (p.readFault.2).overheads = p.overheads := rfl
@[simp] theorem Pwr.readFault_trace (p : Pwr) : (p.readFault.2).trace = p.trace ++ [.regRead .fault p.readFault.1] := rfl

@[simp] theorem Pwr.writeVcomL_rail (v : Byte) (p : Pwr) : ((p.writeVcomL v).2).rail = p.rail := rfl
@[simp] theorem Pwr.writeVcomL_iter (v : Byte) (p : Pwr) : ((p.writeVcomL v).2).iter = p.iter := rfl
@[simp] theorem Pwr.writeVcomL_pgLast (v : Byte) (p : Pwr) : ((p.writeVcomL v).2).pgLast = p.pgLast := rfl
@[simp] theorem Pwr.writeVcomL_busy (v : Byte) (p : Pwr) : ((p.writeVcomL v).2).busy = p.busy := rfl
@[simp] theorem Pwr.writeVcomL_chip (v : Byte) (p : Pwr) : ((p.writeVcomL v).2).chip = { p.chip with vcomL := writeLeaves (p.writeVcomL v).1 p.chip.vcomL v } := rfl
@[simp] theorem Pwr.writeVcomL_pgood (v : Byte) (p : Pwr) : ((p.writeVcomL v).2).pgood = p.pgood := rfl
@[simp] theorem Pwr.writeVcomL_phase (v : Byte) (p : Pwr) : ((p.writeVcomL v).2).phase = p.phase := rfl
@[simp] theorem Pwr.writeVcomL_railWrites (v : Byte) (p : Pwr) : ((p.writeVcomL v).2).railWrites = p.railWrites := rfl
@[simp] theorem Pwr.writeVcomL_railQueries (v : Byte) (p : Pwr) : ((p.writeVcomL v).2).railQueries = p.railQueries := rfl
@[simp] theorem Pwr.writeVcomL_lineReads (v : Byte) (p : Pwr) : ((p.writeVcomL v).2).lineReads = p.lineReads := rfl
@[simp] theorem Pwr.writeVcomL_sleeps (v : Byte) (p : Pwr) : ((p.writeVcomL v).2).sleeps = p.sleeps := rfl
@[simp] theorem Pwr.writeVcomL_vcomReads (v : Byte) (p : Pwr) : ((p.writeVcomL v).2).vcomReads = p.vcomReads := rfl
@[simp] theorem Pwr.writeVcomL_faultReads (v : Byte) (p : Pwr) : ((p.writeVcomL v).2).faultReads = p.faultReads := rfl
@[simp] theorem Pwr.writeVcomL_vcomWrites (v : Byte) (p : Pwr) : ((p.writeVcomL v).2).vcomWrites = (p.vcomWrites.next Config.freeVcomWrite).2 := rfl
@[simp] theorem Pwr.writeVcomL_overheads (v : Byte) (p : Pwr) : ((p.writeVcomL v).2).overheads = p.overheads := rfl
@[simp] theorem Pwr.writeVcomL_trace (v : Byte) (p : Pwr) : ((p.writeVcomL v).2).trace = p.trace ++ [.regWrite .vcomL v (p.writeVcomL v).1] := rfl

@[simp] theorem Pwr.writeVcomH_rail (v : Byte) (p : Pwr) : ((p.writeVcomH v).2).rail = p.rail := rfl
@[simp] theorem Pwr.writeVcomH_iter (v : Byte) (p : Pwr) : ((p.writeVcomH v).2).iter = p.iter := rfl
@[simp] theorem Pwr.writeVcomH_pgLast (v : Byte) (p : Pwr) : ((p.writeVcomH v).2).pgLast = p.pgLast := rfl
@[simp] theorem Pwr.writeVcomH_busy (v : Byte) (p : Pwr) : ((p.writeVcomH v).2).busy = p.busy := rfl
@[simp] theorem Pwr.writeVcomH_chip (v : Byte) (p : Pwr) : ((p.writeVcomH v).2).chip = { p.chip with vcomH := writeLeaves (p.writeVcomH v).1 p.chip.vcomH v } := rfl
@[simp] theorem Pwr.writeVcomH_pgood (v : Byte) (p : Pwr) : ((p.writeVcomH v).2).pgood = p.pgood := rfl
@[simp] theorem Pwr.writeVcomH_phase (v : Byte) (p : Pwr) : ((p.writeVcomH v).2).phase = p.phase := rfl
@[simp] theorem Pwr.writeVcomH_railWrites (v : Byte) (p : Pwr) : ((p.writeVcomH v).2).railWrites = p.railWrites := rfl
@[simp] theorem Pwr.writeVcomH_railQueries (v : Byte) (p : Pwr) : ((p.writeVcomH v).2).railQueries = p.railQueries := rfl
@[simp] theorem Pwr.writeVcomH_lineReads (v : Byte) (p : Pwr) : ((p.writeVcomH v).2).lineReads = p.lineReads := rfl
@[simp] theorem Pwr.writeVcomH_sleeps (v : Byte) (p : Pwr) : ((p.writeVcomH v).2).sleeps = p.sleeps := rfl
@[simp] theorem Pwr.writeVcomH_vcomReads (v : Byte) (p : Pwr) : ((p.writeVcomH v).2).vcomReads = p.vcomReads := rfl
@[simp] theorem Pwr.writeVcomH_faultReads (v : Byte) (p : Pwr) : ((p.writeVcomH v).2).faultReads = p.faultReads := rfl
@[simp] theorem Pwr.writeVcomH_vcomWrites (v : Byte) (p : Pwr) : ((p.writeVcomH v).2).vcomWrites = (p.vcomWrites.next Config.freeVcomWrite).2 := rfl
@[simp] theorem Pwr.writeVcomH_overheads (v : Byte) (p : Pwr) : ((p.writeVcomH v).2).overheads = p.overheads := rfl
@[simp] theorem Pwr.writeVcomH_trace (v : Byte) (p : Pwr) : ((p.writeVcomH v).2).trace = p.trace ++ [.regWrite .vcomH v (p.writeVcomH v).1] := rfl

@[simp] theorem Pwr.elapsed_rail (t : Nat) (p : Pwr) : ((p.elapsed t).2).rail = p.rail := rfl
@[simp] theorem Pwr.elapsed_iter (t : Nat) (p : Pwr) : ((p.elapsed t).2).iter = p.iter := rfl
@[simp] theorem Pwr.elapsed_pgLast (t : Nat) (p : Pwr) : ((p.elapsed t).2).pgLast = p.pgLast := rfl
@[simp] theorem Pwr.elapsed_busy (t : Nat) (p : Pwr) : ((p.elapsed t).2).busy = p.busy := rfl
@[simp] theorem Pwr.elapsed_chip (t : Nat) (p : Pwr) : ((p.elapsed t).2).chip = p.chip := rfl
@[simp] theorem Pwr.elapsed_pgood (t : Nat) (p : Pwr) : ((p.elapsed t).2).pgood = p.pgood := rfl
@[simp] theorem Pwr.elapsed_phase (t : Nat) (p : Pwr) : ((p.elapsed t).2).phase = p.phase := rfl
@[simp] theorem Pwr.elapsed_railWrites (t : Nat) (p : Pwr) : ((p.elapsed t).2).railWrites = p.railWrites := rfl
@[simp] theorem Pwr.elapsed_railQueries (t : Nat) (p : Pwr) : ((p.elapsed t).2).railQueries = p.railQueries := rfl
@[simp] theorem Pwr.elapsed_lineReads (t : Nat) (p : Pwr) : ((p.elapsed t).2).lineReads = p.lineReads := rfl
@[simp] theorem Pwr.elapsed_sleeps (t : Nat) (p : Pwr) : ((p.elapsed t).2).sleeps = p.sleeps := rfl
@[simp] theorem Pwr.elapsed_vcomReads (t : Nat) (p : Pwr) : ((p.elapsed t).2).vcomReads = p.vcomReads := rfl
@[simp] theorem Pwr.elapsed_faultReads (t : Nat) (p : Pwr) : ((p.elapsed t).2).faultReads = p.faultReads := rfl
@[simp] theorem Pwr.elapsed_vcomWrites (t : Nat) (p : Pwr) : ((p.elapsed t).2).vcomWrites = p.vcomWrites := rfl
@[simp] theorem Pwr.elapsed_overheads (t : Nat) (p : Pwr) : ((p.elapsed t).2).overheads = (p.overheads.next Config.freeOverhead).2 := rfl
@[simp] theorem Pwr.elapsed_trace (t : Nat) (p : Pwr) : ((p.elapsed t).2).trace = p.trace := rfl

@[simp] theorem Pwr.setRail_rail (r : RailState) (p : Pwr) : (p.setRail r).rail = r := rfl
@[simp] theorem Pwr.setRail_iter (r : RailState) (p : Pwr) : (p.setRail r).iter = p.iter := rfl
@[simp] theorem Pwr.setRail_pgLast (r : RailState) (p : Pwr) : (p.setRail r).pgLast = p.pgLast := rfl
@[simp] theorem Pwr.setRail_busy (r : RailState) (p : Pwr) : (p.setRail r).busy = p.busy := rfl
@[simp] theorem Pwr.setRail_chip (r : RailState) (p : Pwr) : (p.setRail r).chip = p.chip := rfl
@[simp] theorem Pwr.setRail_pgood (r : RailState) (p : Pwr) : (p.setRail r).pgood = p.pgood := rfl
@[simp] theorem Pwr.setRail_phase (r : RailState) (p : Pwr) : (p.setRail r).phase = p.phase := rfl
@[simp] theorem Pwr.setRail_railWrites (r : RailState) (p : Pwr) : (p.setRail r).railWrites = p.railWrites := rfl
@[simp] theorem Pwr.setRail_railQueries (r : RailState) (p : Pwr) : (p.setRail r).railQueries = p.railQueries := rfl
@[simp] theorem Pwr.setRail_lineReads (r : RailState) (p : Pwr) : (p.setRail r).lineReads = p.lineReads := rfl
@[simp] theorem Pwr.setRail_sleeps (r : RailState) (p : Pwr) : (p.setRail r).sleeps = p.sleeps := rfl
@[simp] theorem Pwr.setRail_vcomReads (r : RailState) (p : Pwr) : (p.setRail r).vcomReads = p.vcomReads := rfl
@[simp] theorem Pwr.setRail_faultReads (r : RailState) (p : Pwr) : (p.setRail r).faultReads = p.faultReads := rfl
@[simp] theorem Pwr.setRail_vcomWrites (r : RailState) (p : Pwr) : (p.setRail r).vcomWrites = p.vcomWrites := rfl
@[simp] theorem Pwr.setRail_overheads (r : RailState) (p : Pwr) : (p.setRail r).overheads = p.overheads := rfl
@[simp] theorem Pwr.setRail_trace (r : RailState) (p : Pwr) : (p.setRail r).trace = p.trace := rfl

@[simp] theorem Pwr.setIter_rail (i : BitVec 9) (p : Pwr) : (p.setIter i).rail = p.rail := rfl
@[simp] theorem Pwr.setIter_iter (i : BitVec 9) (p : Pwr) : (p.setIter i).iter = i := rfl
@[simp] theorem Pwr.setIter_pgLast (i : BitVec 9) (p : Pwr) : (p.setIter i).pgLast = p.pgLast := rfl
@[simp] theorem Pwr.setIter_busy (i : BitVec 9) (p : Pwr) : (p.setIter i).busy = p.busy := rfl
@[simp] theorem Pwr.setIter_chip (i : BitVec 9) (p : Pwr) : (p.setIter i).chip = p.chip := rfl
@[simp] theorem Pwr.setIter_pgood (i : BitVec 9) (p : Pwr) : (p.setIter i).pgood = p.pgood := rfl
@[simp] theorem Pwr.setIter_phase (i : BitVec 9) (p : Pwr) : (p.setIter i).phase = p.phase := rfl
@[simp] theorem Pwr.setIter_railWrites (i : BitVec 9) (p : Pwr) : (p.setIter i).railWrites = p.railWrites := rfl
@[simp] theorem Pwr.setIter_railQueries (i : BitVec 9) (p : Pwr) : (p.setIter i).railQueries = p.railQueries := rfl
@[simp] theorem Pwr.setIter_lineReads (i : BitVec 9) (p : Pwr) : (p.setIter i).lineReads = p.lineReads := rfl
@[simp] theorem Pwr.setIter_sleeps (i : BitVec 9) (p : Pwr) : (p.setIter i).sleeps = p.sleeps := rfl
@[simp] theorem Pwr.setIter_vcomReads (i : BitVec 9) (p : Pwr) : (p.setIter i).vcomReads = p.vcomReads := rfl
@[simp] theorem Pwr.setIter_faultReads (i : BitVec 9) (p : Pwr) : (p.setIter i).faultReads = p.faultReads := rfl
@[simp] theorem Pwr.setIter_vcomWrites (i : BitVec 9) (p : Pwr) : (p.setIter i).vcomWrites = p.vcomWrites := rfl
@[simp] theorem Pwr.setIter_overheads (i : BitVec 9) (p : Pwr) : (p.setIter i).overheads = p.overheads := rfl
@[simp] theorem Pwr.setIter_trace (i : BitVec 9) (p : Pwr) : (p.setIter i).trace = p.trace := rfl

@[simp] theorem Pwr.setPgLast_rail (g : Bool) (p : Pwr) : (p.setPgLast g).rail = p.rail := rfl
@[simp] theorem Pwr.setPgLast_iter (g : Bool) (p : Pwr) : (p.setPgLast g).iter = p.iter := rfl
@[simp] theorem Pwr.setPgLast_pgLast (g : Bool) (p : Pwr) : (p.setPgLast g).pgLast = g := rfl
@[simp] theorem Pwr.setPgLast_busy (g : Bool) (p : Pwr) : (p.setPgLast g).busy = p.busy := rfl
@[simp] theorem Pwr.setPgLast_chip (g : Bool) (p : Pwr) : (p.setPgLast g).chip = p.chip := rfl
@[simp] theorem Pwr.setPgLast_pgood (g : Bool) (p : Pwr) : (p.setPgLast g).pgood = p.pgood := rfl
@[simp] theorem Pwr.setPgLast_phase (g : Bool) (p : Pwr) : (p.setPgLast g).phase = p.phase := rfl
@[simp] theorem Pwr.setPgLast_railWrites (g : Bool) (p : Pwr) : (p.setPgLast g).railWrites = p.railWrites := rfl
@[simp] theorem Pwr.setPgLast_railQueries (g : Bool) (p : Pwr) : (p.setPgLast g).railQueries = p.railQueries := rfl
@[simp] theorem Pwr.setPgLast_lineReads (g : Bool) (p : Pwr) : (p.setPgLast g).lineReads = p.lineReads := rfl
@[simp] theorem Pwr.setPgLast_sleeps (g : Bool) (p : Pwr) : (p.setPgLast g).sleeps = p.sleeps := rfl
@[simp] theorem Pwr.setPgLast_vcomReads (g : Bool) (p : Pwr) : (p.setPgLast g).vcomReads = p.vcomReads := rfl
@[simp] theorem Pwr.setPgLast_faultReads (g : Bool) (p : Pwr) : (p.setPgLast g).faultReads = p.faultReads := rfl
@[simp] theorem Pwr.setPgLast_vcomWrites (g : Bool) (p : Pwr) : (p.setPgLast g).vcomWrites = p.vcomWrites := rfl
@[simp] theorem Pwr.setPgLast_overheads (g : Bool) (p : Pwr) : (p.setPgLast g).overheads = p.overheads := rfl
@[simp] theorem Pwr.setPgLast_trace (g : Bool) (p : Pwr) : (p.setPgLast g).trace = p.trace := rfl

@[simp] theorem Pwr.complete_rail (r : Result) (p : Pwr) : (p.complete r).rail = p.rail := rfl
@[simp] theorem Pwr.complete_iter (r : Result) (p : Pwr) : (p.complete r).iter = p.iter := rfl
@[simp] theorem Pwr.complete_pgLast (r : Result) (p : Pwr) : (p.complete r).pgLast = p.pgLast := rfl
@[simp] theorem Pwr.complete_busy (r : Result) (p : Pwr) : (p.complete r).busy = p.busy := rfl
@[simp] theorem Pwr.complete_chip (r : Result) (p : Pwr) : (p.complete r).chip = p.chip := rfl
@[simp] theorem Pwr.complete_pgood (r : Result) (p : Pwr) : (p.complete r).pgood = p.pgood := rfl
@[simp] theorem Pwr.complete_phase (r : Result) (p : Pwr) : (p.complete r).phase = .ret r := rfl
@[simp] theorem Pwr.complete_railWrites (r : Result) (p : Pwr) : (p.complete r).railWrites = p.railWrites := rfl
@[simp] theorem Pwr.complete_railQueries (r : Result) (p : Pwr) : (p.complete r).railQueries = p.railQueries := rfl
@[simp] theorem Pwr.complete_lineReads (r : Result) (p : Pwr) : (p.complete r).lineReads = p.lineReads := rfl
@[simp] theorem Pwr.complete_sleeps (r : Result) (p : Pwr) : (p.complete r).sleeps = p.sleeps := rfl
@[simp] theorem Pwr.complete_vcomReads (r : Result) (p : Pwr) : (p.complete r).vcomReads = p.vcomReads := rfl
@[simp] theorem Pwr.complete_faultReads (r : Result) (p : Pwr) : (p.complete r).faultReads = p.faultReads := rfl
@[simp] theorem Pwr.complete_vcomWrites (r : Result) (p : Pwr) : (p.complete r).vcomWrites = p.vcomWrites := rfl
@[simp] theorem Pwr.complete_overheads (r : Result) (p : Pwr) : (p.complete r).overheads = p.overheads := rfl
@[simp] theorem Pwr.complete_trace (r : Result) (p : Pwr) : (p.complete r).trace = p.trace := rfl

@[simp] theorem Pwr.raise_rail (e : Error) (p : Pwr) : (p.raise e).rail = p.rail := rfl
@[simp] theorem Pwr.raise_iter (e : Error) (p : Pwr) : (p.raise e).iter = p.iter := rfl
@[simp] theorem Pwr.raise_pgLast (e : Error) (p : Pwr) : (p.raise e).pgLast = p.pgLast := rfl
@[simp] theorem Pwr.raise_busy (e : Error) (p : Pwr) : (p.raise e).busy = p.busy := rfl
@[simp] theorem Pwr.raise_chip (e : Error) (p : Pwr) : (p.raise e).chip = p.chip := rfl
@[simp] theorem Pwr.raise_pgood (e : Error) (p : Pwr) : (p.raise e).pgood = p.pgood := rfl
@[simp] theorem Pwr.raise_phase (e : Error) (p : Pwr) : (p.raise e).phase = .ret (.error e) := rfl
@[simp] theorem Pwr.raise_railWrites (e : Error) (p : Pwr) : (p.raise e).railWrites = p.railWrites := rfl
@[simp] theorem Pwr.raise_railQueries (e : Error) (p : Pwr) : (p.raise e).railQueries = p.railQueries := rfl
@[simp] theorem Pwr.raise_lineReads (e : Error) (p : Pwr) : (p.raise e).lineReads = p.lineReads := rfl
@[simp] theorem Pwr.raise_sleeps (e : Error) (p : Pwr) : (p.raise e).sleeps = p.sleeps := rfl
@[simp] theorem Pwr.raise_vcomReads (e : Error) (p : Pwr) : (p.raise e).vcomReads = p.vcomReads := rfl
@[simp] theorem Pwr.raise_faultReads (e : Error) (p : Pwr) : (p.raise e).faultReads = p.faultReads := rfl
@[simp] theorem Pwr.raise_vcomWrites (e : Error) (p : Pwr) : (p.raise e).vcomWrites = p.vcomWrites := rfl
@[simp] theorem Pwr.raise_overheads (e : Error) (p : Pwr) : (p.raise e).overheads = p.overheads := rfl
@[simp] theorem Pwr.raise_trace (e : Error) (p : Pwr) : (p.raise e).trace = p.trace := rfl

@[simp] theorem Pwr.leave_rail (r : Result) (p : Pwr) : ((p.leave r).1).rail = p.rail := rfl
@[simp] theorem Pwr.leave_iter (r : Result) (p : Pwr) : ((p.leave r).1).iter = p.iter := rfl
@[simp] theorem Pwr.leave_pgLast (r : Result) (p : Pwr) : ((p.leave r).1).pgLast = p.pgLast := rfl
@[simp] theorem Pwr.leave_busy (r : Result) (p : Pwr) : ((p.leave r).1).busy = false := rfl
@[simp] theorem Pwr.leave_chip (r : Result) (p : Pwr) : ((p.leave r).1).chip = p.chip := rfl
@[simp] theorem Pwr.leave_pgood (r : Result) (p : Pwr) : ((p.leave r).1).pgood = p.pgood := rfl
@[simp] theorem Pwr.leave_phase (r : Result) (p : Pwr) : ((p.leave r).1).phase = .idle := rfl
@[simp] theorem Pwr.leave_railWrites (r : Result) (p : Pwr) : ((p.leave r).1).railWrites = p.railWrites := rfl
@[simp] theorem Pwr.leave_railQueries (r : Result) (p : Pwr) : ((p.leave r).1).railQueries = p.railQueries := rfl
@[simp] theorem Pwr.leave_lineReads (r : Result) (p : Pwr) : ((p.leave r).1).lineReads = p.lineReads := rfl
@[simp] theorem Pwr.leave_sleeps (r : Result) (p : Pwr) : ((p.leave r).1).sleeps = p.sleeps := rfl
@[simp] theorem Pwr.leave_vcomReads (r : Result) (p : Pwr) : ((p.leave r).1).vcomReads = p.vcomReads := rfl
@[simp] theorem Pwr.leave_faultReads (r : Result) (p : Pwr) : ((p.leave r).1).faultReads = p.faultReads := rfl
@[simp] theorem Pwr.leave_vcomWrites (r : Result) (p : Pwr) : ((p.leave r).1).vcomWrites = p.vcomWrites := rfl
@[simp] theorem Pwr.leave_overheads (r : Result) (p : Pwr) : ((p.leave r).1).overheads = p.overheads := rfl
@[simp] theorem Pwr.leave_trace (r : Result) (p : Pwr) : ((p.leave r).1).trace = p.trace := rfl

@[simp] theorem Pwr.goto_rail (ph : PwrPhase) (p : Pwr) : (p.goto ph).rail = p.rail := rfl
@[simp] theorem Pwr.goto_iter (ph : PwrPhase) (p : Pwr) : (p.goto ph).iter = p.iter := rfl
@[simp] theorem Pwr.goto_pgLast (ph : PwrPhase) (p : Pwr) : (p.goto ph).pgLast = p.pgLast := rfl
@[simp] theorem Pwr.goto_busy (ph : PwrPhase) (p : Pwr) : (p.goto ph).busy = p.busy := rfl
@[simp] theorem Pwr.goto_chip (ph : PwrPhase) (p : Pwr) : (p.goto ph).chip = p.chip := rfl
@[simp] theorem Pwr.goto_pgood (ph : PwrPhase) (p : Pwr) : (p.goto ph).pgood = p.pgood := rfl
@[simp] theorem Pwr.goto_phase (ph : PwrPhase) (p : Pwr) : (p.goto ph).phase = ph := rfl
@[simp] theorem Pwr.goto_railWrites (ph : PwrPhase) (p : Pwr) : (p.goto ph).railWrites = p.railWrites := rfl
@[simp] theorem Pwr.goto_railQueries (ph : PwrPhase) (p : Pwr) : (p.goto ph).railQueries = p.railQueries := rfl
@[simp] theorem Pwr.goto_lineReads (ph : PwrPhase) (p : Pwr) : (p.goto ph).lineReads = p.lineReads := rfl
@[simp] theorem Pwr.goto_sleeps (ph : PwrPhase) (p : Pwr) : (p.goto ph).sleeps = p.sleeps := rfl
@[simp] theorem Pwr.goto_vcomReads (ph : PwrPhase) (p : Pwr) : (p.goto ph).vcomReads = p.vcomReads := rfl
@[simp] theorem Pwr.goto_faultReads (ph : PwrPhase) (p : Pwr) : (p.goto ph).faultReads = p.faultReads := rfl
@[simp] theorem Pwr.goto_vcomWrites (ph : PwrPhase) (p : Pwr) : (p.goto ph).vcomWrites = p.vcomWrites := rfl
@[simp] theorem Pwr.goto_overheads (ph : PwrPhase) (p : Pwr) : (p.goto ph).overheads = p.overheads := rfl
@[simp] theorem Pwr.goto_trace (ph : PwrPhase) (p : Pwr) : (p.goto ph).trace = p.trace := rfl

@[simp] theorem Pwr.start_rail (ph : PwrPhase) (p : Pwr) : (p.start ph).rail = p.rail := rfl
@[simp] theorem Pwr.start_iter (ph : PwrPhase) (p : Pwr) : (p.start ph).iter = p.iter := rfl
@[simp] theorem Pwr.start_pgLast (ph : PwrPhase) (p : Pwr) : (p.start ph).pgLast = p.pgLast := rfl
@[simp] theorem Pwr.start_busy (ph : PwrPhase) (p : Pwr) : (p.start ph).busy = true := rfl
@[simp] theorem Pwr.start_chip (ph : PwrPhase) (p : Pwr) : (p.start ph).chip = p.chip := rfl
@[simp] theorem Pwr.start_pgood (ph : PwrPhase) (p : Pwr) : (p.start ph).pgood = p.pgood := rfl
@[simp] theorem Pwr.start_phase (ph : PwrPhase) (p : Pwr) : (p.start ph).phase = ph := rfl
@[simp] theorem Pwr.start_railWrites (ph : PwrPhase) (p : Pwr) : (p.start ph).railWrites = p.railWrites := rfl
@[simp] theorem Pwr.start_railQueries (ph : PwrPhase) (p : Pwr) : (p.start ph).railQueries = p.railQueries := rfl
@[simp] theorem Pwr.start_lineReads (ph : PwrPhase) (p : Pwr) : (p.start ph).lineReads = p.lineReads := rfl
@[simp] theorem Pwr.start_sleeps (ph : PwrPhase) (p : Pwr) : (p.start ph).sleeps = p.sleeps := rfl
@[simp] theorem Pwr.start_vcomReads (ph : PwrPhase) (p : Pwr) : (p.start ph).vcomReads = p.vcomReads := rfl
@[simp] theorem Pwr.start_faultReads (ph : PwrPhase) (p : Pwr) : (p.start ph).faultReads = p.faultReads := rfl
@[simp] theorem Pwr.start_vcomWrites (ph : PwrPhase) (p : Pwr) : (p.start ph).vcomWrites = p.vcomWrites := rfl
@[simp] theorem Pwr.start_overheads (ph : PwrPhase) (p : Pwr) : (p.start ph).overheads = p.overheads := rfl
@[simp] theorem Pwr.start_trace (ph : PwrPhase) (p : Pwr) : (p.start ph).trace = p.trace := rfl

@[simp] theorem Pwr.systemReset_rail (p : Pwr) : (p.systemReset).rail = .disabled := rfl
@[simp] theorem Pwr.systemReset_iter (p : Pwr) : (p.systemReset).iter = 0 := rfl
@[simp] theorem Pwr.systemReset_pgLast (p : Pwr) : (p.systemReset).pgLast = false := rfl
@[simp] theorem Pwr.systemReset_busy (p : Pwr) : (p.systemReset).busy = false := rfl
@[simp] theorem Pwr.systemReset_chip (p : Pwr) : (p.systemReset).chip = p.chip := rfl
@[simp] theorem Pwr.systemReset_pgood (p : Pwr) : (p.systemReset).pgood = p.pgood := rfl
@[simp] theorem Pwr.systemReset_phase (p : Pwr) : (p.systemReset).phase = .idle := rfl
@[simp] theorem Pwr.systemReset_railWrites (p : Pwr) : (p.systemReset).railWrites = p.railWrites := rfl
@[simp] theorem Pwr.systemReset_railQueries (p : Pwr) : (p.systemReset).railQueries = p.railQueries := rfl
@[simp] theorem Pwr.systemReset_lineReads (p : Pwr) : (p.systemReset).lineReads = p.lineReads := rfl
@[simp] theorem Pwr.systemReset_sleeps (p : Pwr) : (p.systemReset).sleeps = p.sleeps := rfl
@[simp] theorem Pwr.systemReset_vcomReads (p : Pwr) : (p.systemReset).vcomReads = p.vcomReads := rfl
@[simp] theorem Pwr.systemReset_faultReads (p : Pwr) : (p.systemReset).faultReads = p.faultReads := rfl
@[simp] theorem Pwr.systemReset_vcomWrites (p : Pwr) : (p.systemReset).vcomWrites = p.vcomWrites := rfl
@[simp] theorem Pwr.systemReset_overheads (p : Pwr) : (p.systemReset).overheads = p.overheads := rfl
@[simp] theorem Pwr.systemReset_trace (p : Pwr) : (p.systemReset).trace = p.trace := rfl

/-! ### The whole machine -/

@[simp] theorem State.reply_dig (r : Result) (s : State) : (s.reply r).dig = s.dig := rfl
@[simp] theorem State.reply_pwr (r : Result) (s : State) : (s.reply r).pwr = s.pwr := rfl
@[simp] theorem State.reply_inbox (r : Result) (s : State) : (s.reply r).inbox = s.inbox := rfl
@[simp] theorem State.reply_results (r : Result) (s : State) : (s.reply r).results = s.results ++ [r] := rfl

@[simp] theorem State.putDig_dig (r : Dig × Option Result) (s : State) : (s.putDig r).dig = r.1 := rfl
@[simp] theorem State.putDig_pwr (r : Dig × Option Result) (s : State) : (s.putDig r).pwr = s.pwr := rfl
@[simp] theorem State.putDig_inbox (r : Dig × Option Result) (s : State) : (s.putDig r).inbox = s.inbox := rfl
@[simp] theorem State.putDig_results (r : Dig × Option Result) (s : State) : (s.putDig r).results = s.results ++ r.2.toList := rfl

@[simp] theorem State.putPwr_dig (r : Pwr × Option Result) (s : State) : (s.putPwr r).dig = s.dig := rfl
@[simp] theorem State.putPwr_pwr (r : Pwr × Option Result) (s : State) : (s.putPwr r).pwr = r.1 := rfl
@[simp] theorem State.putPwr_inbox (r : Pwr × Option Result) (s : State) : (s.putPwr r).inbox = s.inbox := rfl
@[simp] theorem State.putPwr_results (r : Pwr × Option Result) (s : State) : (s.putPwr r).results = s.results ++ r.2.toList := rfl

@[simp] theorem State.answerDig_dig (r : Result) (s : State) : (s.answerDig r).dig = s.settleDig.dig := rfl
@[simp] theorem State.answerDig_pwr (r : Result) (s : State) : (s.answerDig r).pwr = s.pwr := rfl
@[simp] theorem State.answerDig_inbox (r : Result) (s : State) : (s.answerDig r).inbox = s.inbox := rfl
@[simp] theorem State.answerDig_results (r : Result) (s : State) : (s.answerDig r).results = s.settleDig.results ++ [r] := rfl

@[simp] theorem State.answerPwr_dig (r : Result) (s : State) : (s.answerPwr r).dig = s.dig := rfl
@[simp] theorem State.answerPwr_pwr (r : Result) (s : State) : (s.answerPwr r).pwr = s.settlePwr.pwr := rfl
@[simp] theorem State.answerPwr_inbox (r : Result) (s : State) : (s.answerPwr r).inbox = s.inbox := rfl
@[simp] theorem State.answerPwr_results (r : Result) (s : State) : (s.answerPwr r).results = s.settlePwr.results ++ [r] := rfl

@[simp] theorem State.illegal_dig (s : State) : (s.illegal).dig = s.dig := rfl
@[simp] theorem State.illegal_pwr (s : State) : (s.illegal).pwr = s.pwr := rfl
@[simp] theorem State.illegal_inbox (s : State) : (s.illegal).inbox = s.inbox := rfl
@[simp] theorem State.illegal_results (s : State) : (s.illegal).results = s.results ++ [.error .illegalCommand] := rfl

/-! ### What an operation's last micro-step answers -/

@[simp] theorem Dig.leave_result (r : Option Result) (d : Dig) : (d.leave r).2 = r := rfl
@[simp] theorem Pwr.leave_result (r : Result) (p : Pwr) : (p.leave r).2 = some r := rfl

end Sys2Proof.Machine
end

