-- ==== Sys2Proof/Laws/Ops.lean ====
section
/-! SUPPORT. What a port answers (its next answer in order), and the bounds of the two durations. -/

namespace Sys2Proof.Machine

/-- A port gives its next answer. -/
theorem Oracle.next_fst {α : Type} (free : Nat → α) (o : Oracle α) : (o.next free).1 = o.nth free 0 := by
  cases o with
  | mk script used => cases script <;> simp [Oracle.next, Oracle.nth]

/-- After an answer the others follow in order. -/
theorem Oracle.next_snd_nth {α : Type} (free : Nat → α) (o : Oracle α) (k : Nat) :
    ((o.next free).2).nth free k = o.nth free (k + 1) := by
  cases o with
  | mk script used =>
    cases script with
    | nil => simp [Oracle.next, Oracle.nth, Nat.add_comm, Nat.add_left_comm]
    | cons a rest => simp [Oracle.next, Oracle.nth, Nat.add_sub_add_right]

/-! ### The answers of the primitives -/

theorem Dig.busTransfer_answer (msgs : List BusMsg) (d : Dig) : (d.busTransfer msgs).1 = d.nextTransfer :=
  Oracle.next_fst _ _

theorem Dig.busRecv_answer (d : Dig) : d.busRecv.1 = d.nextRecv :=
  Oracle.next_fst _ _

theorem Pwr.railWrite_answer (on : Bool) (p : Pwr) : (p.railWrite on).1 = p.nextRailWrite :=
  Oracle.next_fst _ _

theorem Pwr.railQuery_answer (p : Pwr) : p.railQuery.1 = p.nextRailQuery :=
  Oracle.next_fst _ _

theorem Pwr.gpioRead_answer (p : Pwr) : p.gpioRead.1 = p.lineAt 0 :=
  Oracle.next_fst _ _

theorem Pwr.readFault_answer (p : Pwr) : p.readFault.1 = p.nextFaultRead :=
  Oracle.next_fst _ _

theorem Pwr.writeVcomL_answer (v : Byte) (p : Pwr) : (p.writeVcomL v).1 = p.nextVcomWrite :=
  Oracle.next_fst _ _

theorem Pwr.writeVcomH_answer (v : Byte) (p : Pwr) : (p.writeVcomH v).1 = p.nextVcomWrite :=
  Oracle.next_fst _ _

theorem Pwr.readVcomL_answer (p : Pwr) : p.readVcomL.1 = storedAnswer p.nextVcomRead p.chip.vcomL :=
  congrArg (storedAnswer · p.chip.vcomL) (Oracle.next_fst _ _)

theorem Pwr.readVcomH_answer (p : Pwr) : p.readVcomH.1 = storedAnswer p.nextVcomRead p.chip.vcomH :=
  congrArg (storedAnswer · p.chip.vcomH) (Oracle.next_fst _ _)

theorem Pwr.sleep_answer (lo hi : Nat) (p : Pwr) : (p.sleep lo hi).1 = p.sleepAt lo hi 0 :=
  congrArg (sleepTime lo hi) (Oracle.next_fst _ _)

/-- A second low-level write of the rail is answered by the second answer from now. -/
theorem Pwr.railWrite_then (on : Bool) (p : Pwr) : (p.railWrite on).2.nextRailWrite = p.secondRailWrite :=
  Oracle.next_snd_nth _ _ 0

theorem Pwr.writeVcomL_then (v : Byte) (p : Pwr) : (p.writeVcomL v).2.nextVcomWrite = p.secondVcomWrite :=
  Oracle.next_snd_nth _ _ 0

theorem Pwr.readVcomL_then (p : Pwr) : p.readVcomL.2.nextVcomRead = p.secondVcomRead :=
  Oracle.next_snd_nth _ _ 0

theorem Pwr.gpioRead_then (p : Pwr) (k : Nat) : p.gpioRead.2.lineAt k = p.lineAt (k + 1) :=
  Oracle.next_snd_nth _ _ k

theorem Pwr.sleep_then (lo hi lo' hi' : Nat) (p : Pwr) (k : Nat) :
    (p.sleep lo hi).2.sleepAt lo' hi' k = p.sleepAt lo' hi' (k + 1) :=
  congrArg (sleepTime lo' hi') (Oracle.next_snd_nth _ _ k)

/-! ### What each primitive does, in terms of the environment's next answer -/

theorem Dig.busTransfer_eq (msgs : List BusMsg) (d : Dig) :
    d.busTransfer msgs = (d.nextTransfer, { d with
      transfers := (d.transfers.next Config.freeTransfer).2
      trace := d.trace ++ [.busTransfer msgs d.nextTransfer] }) := by
  simp [Dig.busTransfer, Dig.nextTransfer, Oracle.next_fst]

theorem Dig.busRecv_eq (d : Dig) :
    d.busRecv = (d.nextRecv, { d with
      reportReads := (d.reportReads.next Config.freeRecv).2
      trace := d.trace ++ [.busRecv Config.digitizerAddr Config.penLen d.nextRecv] }) := by
  simp [Dig.busRecv, Dig.nextRecv, Oracle.next_fst]

theorem Pwr.railWrite_eq (on : Bool) (p : Pwr) :
    p.railWrite on = (p.nextRailWrite, { p with
      railWrites := (p.railWrites.next Config.freeRailWrite).2
      chip := { p.chip with railOn := writeLeaves p.nextRailWrite p.chip.railOn on }
      trace := p.trace ++ [.railWrite on p.nextRailWrite] }) := by
  simp [Pwr.railWrite, Pwr.nextRailWrite, Oracle.next_fst]

theorem Pwr.railQuery_eq (p : Pwr) :
    p.railQuery = (p.nextRailQuery, { p with
      railQueries := (p.railQueries.next Config.freeRailQuery).2
      trace := p.trace ++ [.railQuery (storedBit p.nextRailQuery p.chip.railOn)] }) := by
  simp [Pwr.railQuery, Pwr.nextRailQuery, Oracle.next_fst]

theorem Pwr.gpioRead_eq (p : Pwr) :
    p.gpioRead = (p.lineAt 0, { p with
      lineReads := (p.lineReads.next Config.freeLine).2
      pgood := lineAfter (p.lineAt 0) p.pgood
      trace := p.trace ++ [.gpioRead (p.lineAt 0)] }) := by
  simp [Pwr.gpioRead, Pwr.lineAt, Oracle.next_fst]

theorem Pwr.sleep_eq (lo hi : Nat) (p : Pwr) :
    p.sleep lo hi = (p.sleepAt lo hi 0, { p with
      sleeps := (p.sleeps.next Config.freeSleep).2
      trace := p.trace ++ [.sleep lo hi (p.sleepAt lo hi 0)] }) := by
  simp [Pwr.sleep, Pwr.sleepAt, Oracle.next_fst]

theorem Pwr.readVcomL_eq (p : Pwr) :
    p.readVcomL = (storedAnswer p.nextVcomRead p.chip.vcomL, { p with
      vcomReads := (p.vcomReads.next Config.freeVcomRead).2
      trace := p.trace ++ [.regRead .vcomL (storedAnswer p.nextVcomRead p.chip.vcomL)] }) := by
  simp [Pwr.readVcomL, Pwr.readStored, Pwr.nextVcomRead, Oracle.next_fst]

theorem Pwr.readVcomH_eq (p : Pwr) :
    p.readVcomH = (storedAnswer p.nextVcomRead p.chip.vcomH, { p with
      vcomReads := (p.vcomReads.next Config.freeVcomRead).2
      trace := p.trace ++ [.regRead .vcomH (storedAnswer p.nextVcomRead p.chip.vcomH)] }) := by
  simp [Pwr.readVcomH, Pwr.readStored, Pwr.nextVcomRead, Oracle.next_fst]

theorem Pwr.readFault_eq (p : Pwr) :
    p.readFault = (p.nextFaultRead, { p with
      faultReads := (p.faultReads.next Config.freeFaultRead).2
      chip := { p.chip with fault := faultAfter p.nextFaultRead p.chip.fault }
      trace := p.trace ++ [.regRead .fault p.nextFaultRead] }) := by
  simp [Pwr.readFault, Pwr.nextFaultRead, Oracle.next_fst]

theorem Pwr.writeVcomL_eq (v : Byte) (p : Pwr) :
    p.writeVcomL v = (p.nextVcomWrite, { p with
      vcomWrites := (p.vcomWrites.next Config.freeVcomWrite).2
      chip := { p.chip with vcomL := writeLeaves p.nextVcomWrite p.chip.vcomL v }
      trace := p.trace ++ [.regWrite .vcomL v p.nextVcomWrite] }) := by
  simp [Pwr.writeVcomL, Pwr.nextVcomWrite, Oracle.next_fst]

theorem Pwr.writeVcomH_eq (v : Byte) (p : Pwr) :
    p.writeVcomH v = (p.nextVcomWrite, { p with
      vcomWrites := (p.vcomWrites.next Config.freeVcomWrite).2
      chip := { p.chip with vcomH := writeLeaves p.nextVcomWrite p.chip.vcomH v }
      trace := p.trace ++ [.regWrite .vcomH v p.nextVcomWrite] }) := by
  simp [Pwr.writeVcomH, Pwr.nextVcomWrite, Oracle.next_fst]

/-! ### Durations -/

theorem sleepTime_ge (lo hi x : Nat) : lo ≤ sleepTime lo hi x :=
  Nat.le_add_right _ _

theorem sleepTime_le {lo hi : Nat} (h : lo ≤ hi) (x : Nat) : sleepTime lo hi x ≤ hi := by
  unfold sleepTime; omega

/-- `elapsed` is not below the sum of the sleeps (spec/42_power_rail_sequencer.md R167). -/
theorem elapsedTime_ge {t : Nat} (h : t < 2 ^ 32) (x : Nat) : t ≤ (elapsedTime t x).toNat := by
  unfold elapsedTime
  rw [BitVec.toNat_ofNat, Nat.mod_eq_of_lt] <;> omega

end Sys2Proof.Machine
end

