-- ==== Sys2Proof/Laws/Agents.lean ====
section
/-! SUPPORT. Every operation ends: each micro-step takes an operation in flight nearer to its end, so a run to
the end is one micro-step and then the rest, and leaves the agent idle. -/

namespace Sys2Proof.Machine

/-! ### The digitizer side -/

/-- How many micro-steps an operation needs at most from this phase. -/
def DigPhase.rank (ph : DigPhase) : Nat :=
  match ph with
  | .idle => 0
  | .qryPulse => 4
  | .qryTransfer => 3
  | .qryLatch _ => 2
  | .penRecv => 16
  | .penDecode _ => 15
  | .penEmit _ rest => rest.length + 2
  | .irqGate _ => 2
  | .ret _ => 1

theorem DigPhase.rank_le_bound (ph : DigPhase) : ph.rank ≤ ph.bound := by
  cases ph <;> simp [DigPhase.rank, DigPhase.bound]

theorem penNext_rank (l : List SinkEvent) : (penNext l).rank = l.length + 1 := by
  cases l <;> rfl

/-- A micro-step of an operation in flight takes it nearer to its end. -/
theorem Dig.micro_rank (d : Dig) (h : d.phase ≠ .idle) : d.micro.1.phase.rank < d.phase.rank := by
  cases hp : d.phase with
  | idle => exact absurd hp h
  | qryPulse => simp [Dig.micro, hp, qryPulse, DigPhase.rank]
  | qryTransfer =>
    simp only [Dig.micro, hp, Machine.qryTransfer]
    split <;> simp [DigPhase.rank]
  | qryLatch rx => simp [Dig.micro, hp, qryLatch, DigPhase.rank]
  | penRecv => simp only [Dig.micro, hp, penRecv]; split <;> simp [DigPhase.rank]
  | penDecode raw =>
    simp only [Dig.micro, hp, penLatch, Dig.goto_phase, penNext_rank]
    simp [sampleEvents, DigPhase.rank]
  | penEmit e rest =>
    simp only [Dig.micro, hp, penEmit, Dig.goto_phase, penNext_rank]
    simp [DigPhase.rank]
  | irqGate on => simp [Dig.micro, hp, irqGate, DigPhase.rank]
  | ret r => simp [Dig.micro, hp, DigPhase.rank]

/-- A result comes with the operation's last micro-step, and only then. -/
theorem Dig.micro_result (d : Dig) (r : Result) (h : d.micro.2 = some r) :
    d.phase = .ret (some r) ∧ d.micro.1.phase = .idle := by
  cases hp : d.phase <;> simp [Dig.micro, hp] at h
  simp [Dig.micro, hp, h]

/-- Fuel beyond the rank changes nothing. -/
theorem Dig.run_enough (m n : Nat) (d : Dig) (hm : d.phase.rank ≤ m) (hn : d.phase.rank ≤ n) :
    d.run m = d.run n := by
  induction m generalizing n d with
  | zero =>
    have h0 : d.phase = .idle := by cases h : d.phase <;> simp_all [DigPhase.rank]
    cases n <;> simp [Dig.run, h0]
  | succ m ih =>
    by_cases h0 : d.phase = .idle
    · cases n <;> simp [Dig.run, h0]
    · have hlt := d.micro_rank h0
      cases n with
      | zero => omega
      | succ n =>
        simp only [Dig.run, h0, if_false]
        split
        · rfl
        · next e => exact ih n _ (by rw [e] at hlt; simp at hlt; omega) (by rw [e] at hlt; simp at hlt; omega)

theorem Dig.finish_idle {d : Dig} (h : d.phase = .idle) : d.finish = (d, none) := by
  simp [Dig.finish, h, DigPhase.bound, Dig.run]

/-- A run to the end is one micro-step, and then the rest if the operation has not ended with a result. -/
theorem Dig.finish_step {d : Dig} (h : d.phase ≠ .idle) :
    d.finish = match d.micro with
      | (d', some r) => (d', some r)
      | (d', none) => d'.finish := by
  have hlt := d.micro_rank h
  have hb := d.phase.rank_le_bound
  unfold Dig.finish
  rw [Dig.run_enough _ (d.phase.bound + 1) d hb (by omega)]
  simp only [Dig.run, h, if_false]
  rcases e : d.micro with ⟨d', _ | r⟩
  · rw [e] at hlt
    exact Dig.run_enough d.phase.bound d'.phase.bound d' (by simp at hlt; omega) d'.phase.rank_le_bound
  · rfl

/-- A micro-step that goes on hands the run over. -/
theorem Dig.finish_of_goto {d d' : Dig} (h : d.phase ≠ .idle) (e : d.micro = (d', none)) :
    d.finish = d'.finish := by
  rw [Dig.finish_step h, e]

/-- The last micro-step ends the run. -/
theorem Dig.finish_ret {d : Dig} {r : Option Result} (h : d.phase = .ret r) : d.finish = d.leave r := by
  have e : d.micro = d.leave r := by simp [Dig.micro, h]
  rw [Dig.finish_step (by simp [h]), e]
  cases r
  · exact Dig.finish_idle rfl
  · rfl

/-- A micro-step after which the operation returns leaves the last micro-step to make. -/
theorem Dig.finish_of_complete {d d' : Dig} {r : Option Result} (h : d.phase ≠ .idle)
    (e : d.micro = (d'.complete r, none)) : d.finish = d'.leave r :=
  (Dig.finish_of_goto h e).trans (Dig.finish_ret rfl)

/-- Every run to the end leaves the agent idle. -/
theorem Dig.finish_phase (d : Dig) : d.finish.1.phase = .idle := by
  suffices h : ∀ n (d : Dig), d.phase.rank ≤ n → d.finish.1.phase = .idle from h _ d (Nat.le_refl _)
  intro n
  induction n with
  | zero =>
    intro d hd
    have h0 : d.phase = .idle := by cases h : d.phase <;> simp_all [DigPhase.rank]
    simp [Dig.finish_idle h0, h0]
  | succ n ih =>
    intro d hd
    by_cases h0 : d.phase = .idle
    · simp [Dig.finish_idle h0, h0]
    · have hlt := d.micro_rank h0
      rw [Dig.finish_step h0]
      split
      · next d' r e => simpa [e] using (d.micro_result r (by simp [e])).2
      · next d' e => exact ih d' (by rw [e] at hlt; simp at hlt; omega)

/-- What every micro-step of an operation in flight keeps, the run to the end keeps. -/
theorem Dig.finish_keeps (P : Dig → Prop) (keep : ∀ d : Dig, d.phase ≠ .idle → P d → P d.micro.1) (d : Dig)
    (h : P d) : P d.finish.1 := by
  suffices aux : ∀ n (d : Dig), d.phase.rank ≤ n → P d → P d.finish.1 from aux _ d (Nat.le_refl _) h
  intro n
  induction n with
  | zero =>
    intro d hd h
    have h0 : d.phase = .idle := by cases h : d.phase <;> simp_all [DigPhase.rank]
    rwa [Dig.finish_idle h0]
  | succ n ih =>
    intro d hd h
    by_cases h0 : d.phase = .idle
    · rwa [Dig.finish_idle h0]
    · have hlt := d.micro_rank h0
      have hk := keep d h0 h
      rw [Dig.finish_step h0]
      split
      · next d' r e => rwa [e] at hk
      · next d' e =>
        rw [e] at hk hlt
        exact ih d' (by simp at hlt; omega) hk

/-! ### The power side -/

/-- How many micro-steps an operation needs at most from this phase, with `iter` reads counted. -/
def PwrPhase.rank (ph : PwrPhase) (iter : Nat) : Nat :=
  match ph with
  | .idle => 0
  | .enWrite => 2009
  | .enRail => 2008
  | .enIter => 2007
  | .enPoll _ => 4 * (500 - (iter + 1) % 512) + 10
  | .enCount _ _ => 4 * (500 - (iter + 1) % 512) + 9
  | .enKeep _ _ => 4 * (500 - iter) + 8
  | .enSleep _ => 4 * (500 - iter) + 7
  | .enGood _ => 3
  | .enReport _ => 2
  | .enAbort _ => 2
  | .enFail _ => 6
  | .forcedWrite _ => 5
  | .forcedSleep _ => 4
  | .forcedRail _ => 3
  | .enTimeout _ => 2
  | .disWrite => 4
  | .disSleep _ => 3
  | .disRail => 2
  | .isenQuery => 2
  | .statInit => 2002
  | .statPoll => 4 * (500 - (iter + 1) % 512) + 5
  | .statCount _ => 4 * (500 - (iter + 1) % 512) + 4
  | .statKeep _ => 4 * (500 - iter) + 3
  | .statSleep => 4 * (500 - iter) + 2
  | .rdmvLow => 3
  | .rdmvHigh _ => 2
  | .rduvLow => 3
  | .rduvHigh _ => 2
  | .wrmvLow _ _ => 3
  | .wrmvHigh _ => 2
  | .fltStateRead => 2
  | .fltPgRead => 2
  | .ret _ => 1

/-- How many micro-steps the operation in flight needs at most. -/
def Pwr.rank (p : Pwr) : Nat := p.phase.rank p.iter.toNat

theorem Pwr.rank_le_bound (p : Pwr) : p.rank ≤ Pwr.bound := by
  unfold Pwr.rank Pwr.bound Config.pollMax
  cases p.phase <;> simp only [PwrPhase.rank] <;> omega

theorem iter_succ {i : BitVec 9} (h : i.toNat < 500) : (i + 1).toNat = i.toNat + 1 := by
  rw [BitVec.toNat_add]
  simp
  omega

theorem Pwr.rank_idle {p : Pwr} (h : p.phase = .idle) : p.rank = 0 := by simp [Pwr.rank, h, PwrPhase.rank]

theorem Pwr.iter_of_gpioRead {p p' : Pwr} {a : LineAnswer} (e : p.gpioRead = (a, p')) : p'.iter = p.iter := by
  rw [← Pwr.gpioRead_iter p, e]

/-- A micro-step of an operation in flight takes it nearer to its end. -/
theorem Pwr.micro_rank (p : Pwr) (h : p.phase ≠ .idle) : p.micro.1.rank < p.rank := by
  have hi := p.iter.isLt
  unfold Pwr.rank
  cases hp : p.phase with
  | idle => exact absurd hp h
  | enWrite => simp only [Pwr.micro, hp, railEnWrite]; split <;> simp [PwrPhase.rank]
  | enPoll t =>
    simp only [Pwr.micro, hp, railEnPoll]
    split
    · simp [PwrPhase.rank]
    · next e => simp [PwrPhase.rank, Pwr.iter_of_gpioRead e]
  | enKeep t g => cases g <;> simp [Pwr.micro, hp, enRead, PwrPhase.rank]
  | enSleep t =>
    simp only [Pwr.micro, hp, railEnSleep, Pwr.pollSleep, Pwr.enNext, Pwr.goto_phase, Pwr.goto_iter, Pwr.sleep_iter,
      Config.pollMax]
    by_cases hlt : p.iter.toNat < 500 <;> simp only [hlt, if_true, if_false, PwrPhase.rank] <;> omega
  | enReport t => simp [Pwr.micro, hp, railEnReport, PwrPhase.rank]
  | enTimeout t => simp [Pwr.micro, hp, railEnTimeout, PwrPhase.rank]
  | forcedWrite t => simp [Pwr.micro, hp, railForcedWrite, PwrPhase.rank]
  | disWrite => simp [Pwr.micro, hp, railDisWrite, PwrPhase.rank]
  | disSleep w => cases w <;> simp [Pwr.micro, hp, railDisSleep, PwrPhase.rank]
  | isenQuery => simp only [Pwr.micro, hp, railIsenQuery]; split <;> simp [PwrPhase.rank]
  | statPoll =>
    simp only [Pwr.micro, hp, railStatPoll]
    split
    · simp [PwrPhase.rank]
    · next e => simp [PwrPhase.rank, Pwr.iter_of_gpioRead e]
  | statKeep g => cases g <;> simp [Pwr.micro, hp, statRead, PwrPhase.rank]
  | statSleep =>
    simp only [Pwr.micro, hp, railStatSleep, Pwr.pollSleep, Pwr.statNext, Pwr.goto_phase, Pwr.goto_iter, Pwr.sleep_iter,
      Config.pollMax]
    by_cases hlt : p.iter.toNat < 500 <;> simp only [hlt, if_true, if_false, PwrPhase.rank] <;> omega
  | rdmvLow => simp only [Pwr.micro, hp, vcomRdmvLow]; split <;> simp [PwrPhase.rank]
  | rdmvHigh low => simp only [Pwr.micro, hp, vcomRdmvHigh]; split <;> simp [PwrPhase.rank]
  | rduvLow => simp only [Pwr.micro, hp, vcomRduvLow]; split <;> simp [PwrPhase.rank]
  | rduvHigh low => simp only [Pwr.micro, hp, vcomRduvHigh]; split <;> simp [PwrPhase.rank]
  | wrmvLow low high => simp only [Pwr.micro, hp, vcomWrmvLow]; split <;> simp [PwrPhase.rank]
  | wrmvHigh high => simp only [Pwr.micro, hp, vcomWrmvHigh]; split <;> simp [PwrPhase.rank]
  | fltStateRead => simp only [Pwr.micro, hp, fltStateRead]; split <;> simp [PwrPhase.rank]
  | fltPgRead => simp only [Pwr.micro, hp, fltPgRead]; split <;> simp [PwrPhase.rank]
  | _ => simp [Pwr.micro, hp, PwrPhase.rank]

/-- A result comes with the operation's last micro-step, and only then. -/
theorem Pwr.micro_result (p : Pwr) (r : Result) (h : p.micro.2 = some r) :
    p.phase = .ret r ∧ p.micro.1.phase = .idle := by
  cases hp : p.phase <;> simp [Pwr.micro, hp] at h
  simp [Pwr.micro, hp, h]

theorem Pwr.rank_zero {p : Pwr} (h : p.rank = 0) : p.phase = .idle := by
  unfold Pwr.rank at h
  cases hp : p.phase <;> simp_all [PwrPhase.rank]

/-- Fuel beyond the rank changes nothing. -/
theorem Pwr.run_enough (m n : Nat) (p : Pwr) (hm : p.rank ≤ m) (hn : p.rank ≤ n) : p.run m = p.run n := by
  induction m generalizing n p with
  | zero =>
    have h0 := Pwr.rank_zero (Nat.le_zero.mp hm)
    cases n <;> simp [Pwr.run, h0]
  | succ m ih =>
    by_cases h0 : p.phase = .idle
    · cases n <;> simp [Pwr.run, h0]
    · have hlt := p.micro_rank h0
      cases n with
      | zero => omega
      | succ n =>
        simp only [Pwr.run, h0, if_false]
        split
        · rfl
        · next e => exact ih n _ (by rw [e] at hlt; simp at hlt; omega) (by rw [e] at hlt; simp at hlt; omega)

theorem Pwr.finish_idle {p : Pwr} (h : p.phase = .idle) : p.finish = (p, none) := by
  rw [Pwr.finish, Pwr.run_enough _ 0 p p.rank_le_bound (Pwr.rank_idle h).le, Pwr.run]

/-- A run to the end is one micro-step, and then the rest if the operation has not ended with a result. -/
theorem Pwr.finish_step {p : Pwr} (h : p.phase ≠ .idle) :
    p.finish = match p.micro with
      | (p', some r) => (p', some r)
      | (p', none) => p'.finish := by
  have hb := p.rank_le_bound
  unfold Pwr.finish
  rw [Pwr.run_enough _ (Pwr.bound + 1) p hb (by omega)]
  rcases e : p.micro with ⟨p', _ | r⟩ <;> simp only [Pwr.run, h, if_false, e]

/-- A micro-step that goes on hands the run over. -/
theorem Pwr.finish_of_goto {p p' : Pwr} (h : p.phase ≠ .idle) (e : p.micro = (p', none)) :
    p.finish = p'.finish := by
  rw [Pwr.finish_step h, e]

/-- The last micro-step ends the run. -/
theorem Pwr.finish_ret {p : Pwr} {r : Result} (h : p.phase = .ret r) : p.finish = p.leave r := by
  have e : p.micro = p.leave r := by simp [Pwr.micro, h]
  rw [Pwr.finish_step (by simp [h]), e]
  rfl

/-- A micro-step after which the operation returns leaves the last micro-step to make. -/
theorem Pwr.finish_of_complete {p p' : Pwr} {r : Result} (h : p.phase ≠ .idle)
    (e : p.micro = (p'.complete r, none)) : p.finish = p'.leave r :=
  (Pwr.finish_of_goto h e).trans (Pwr.finish_ret rfl)

/-- Every run to the end leaves the agent idle (R180: every operation of the sequencer terminates). -/
theorem Pwr.finish_phase (p : Pwr) : p.finish.1.phase = .idle := by
  suffices h : ∀ n (p : Pwr), p.rank ≤ n → p.finish.1.phase = .idle from h _ p (Nat.le_refl _)
  intro n
  induction n with
  | zero =>
    intro p hp
    have h0 := Pwr.rank_zero (Nat.le_zero.mp hp)
    simp [Pwr.finish_idle h0, h0]
  | succ n ih =>
    intro p hp
    by_cases h0 : p.phase = .idle
    · simp [Pwr.finish_idle h0, h0]
    · have hlt := p.micro_rank h0
      rw [Pwr.finish_step h0]
      split
      · next p' r e => simpa [e] using (p.micro_result r (by simp [e])).2
      · next p' e => exact ih p' (by rw [e] at hlt; simp at hlt; omega)

/-- What every micro-step of an operation in flight keeps, the run to the end keeps. -/
theorem Pwr.finish_keeps (P : Pwr → Prop) (keep : ∀ p : Pwr, p.phase ≠ .idle → P p → P p.micro.1) (p : Pwr)
    (h : P p) : P p.finish.1 := by
  suffices aux : ∀ n (p : Pwr), p.rank ≤ n → P p → P p.finish.1 from aux _ p (Nat.le_refl _) h
  intro n
  induction n with
  | zero =>
    intro p hp h
    rwa [Pwr.finish_idle (Pwr.rank_zero (Nat.le_zero.mp hp))]
  | succ n ih =>
    intro p hp h
    by_cases h0 : p.phase = .idle
    · rwa [Pwr.finish_idle h0]
    · have hlt := p.micro_rank h0
      have hk := keep p h0 h
      rw [Pwr.finish_step h0]
      split
      · next p' r e => rwa [e] at hk
      · next p' e =>
        rw [e] at hk hlt
        exact ih p' (by simp at hlt; omega) hk

/-! ### The whole machine -/

theorem State.settleDig_idle {s : State} (h : s.dig.phase = .idle) : s.settleDig = s := by
  simp [State.settleDig, State.putDig, Dig.finish_idle h]

theorem State.settlePwr_idle {s : State} (h : s.pwr.phase = .idle) : s.settlePwr = s := by
  simp [State.settlePwr, State.putPwr, Pwr.finish_idle h]

/-- The digitizer side is idle once it has settled. -/
theorem State.settleDig_phase (s : State) : s.settleDig.dig.phase = .idle := Dig.finish_phase s.dig

/-- The power side is idle once it has settled. -/
theorem State.settlePwr_phase (s : State) : s.settlePwr.pwr.phase = .idle := Pwr.finish_phase s.pwr

/-- A pure operation of the digitizer side's units over an idle `DIG` only returns its result. -/
theorem State.answerDig_idle {s : State} (r : Result) (h : s.dig.phase = .idle) : s.answerDig r = s.reply r := by
  rw [State.answerDig, State.settleDig_idle h]

/-- A pure operation of the power side's units over an idle `PWR` only returns its result. -/
theorem State.answerPwr_idle {s : State} (r : Result) (h : s.pwr.phase = .idle) : s.answerPwr r = s.reply r := by
  rw [State.answerPwr, State.settlePwr_idle h]

/-- A whole `DIG` operation on an idle agent is its run from the start to the end. -/
theorem State.runDig_idle {s : State} (ph : DigPhase) (h : s.dig.phase = .idle) :
    s.runDig ph = s.putDig (s.dig.start ph).finish := by
  simp [State.runDig, State.launchDig, State.settleDig_idle h]
  rfl

/-- A whole `PWR` operation on an idle agent is its run from the start to the end. -/
theorem State.runPwr_idle {s : State} (ph : PwrPhase) (h : s.pwr.phase = .idle) :
    s.runPwr ph = s.putPwr (s.pwr.start ph).finish := by
  simp [State.runPwr, State.launchPwr, State.settlePwr_idle h]
  rfl

end Sys2Proof.Machine
end

