-- ==== Sys2Proof/Laws/Codec.lean ====
section
/-! SUPPORT. What the field assembly and the VCOM arithmetic compute, as numbers: one lemma per function. -/

namespace Sys2Proof.Machine

/-- Two bytes put together, the second more significant (spec/20_memory.md R51). -/
theorem assemble_toNat (a b : Byte) :
    (a.setWidth 16 ||| (b.setWidth 16 <<< 8)).toNat = a.toNat + 256 * b.toNat := by
  have ha := a.isLt
  have hb := b.isLt
  rw [BitVec.toNat_or, BitVec.toNat_shiftLeft, BitVec.toNat_setWidth, BitVec.toNat_setWidth,
    Nat.mod_eq_of_lt (by omega), Nat.mod_eq_of_lt (by omega), Nat.shiftLeft_eq, Nat.mod_eq_of_lt (by omega),
    Nat.or_comm, Nat.mul_comm, ← Nat.two_pow_add_eq_or_of_lt ha]
  omega

theorem le16_toNat {n : Nat} (buf : Vector Byte n) (o : Nat) (h : o + 1 < n) :
    (le16 buf o h).toNat = buf[o].toNat + 256 * buf[o + 1].toNat :=
  assemble_toNat _ _

theorem le16_append {n : Nat} (buf : Vector Byte n) (o : Nat) (h : o + 1 < n) :
    le16 buf o h = buf[o + 1] ++ buf[o] := by
  have h0 := buf[o].isLt
  apply BitVec.eq_of_toNat_eq
  rw [le16_toNat, BitVec.toNat_append, Nat.shiftLeft_eq, Nat.mul_comm _ (2 ^ 8),
    ← Nat.two_pow_add_eq_or_of_lt h0]
  omega

/-- Two's complement (spec/30_encoding.md R89). -/
theorem sext_toInt (v : Half) : sext v = v.toInt := by
  rw [BitVec.toInt_eq_toNat_cond]
  unfold sext
  split <;> split <;> omega

/-- The low byte of a field and its high byte put together again give the field. -/
theorem assemble_split (v : Half) :
    (v.setWidth 8).setWidth 16 ||| (((v >>> 8).setWidth 8).setWidth 16 <<< 8) = v := by
  have := v.isLt
  apply BitVec.eq_of_toNat_eq
  rw [assemble_toNat]
  simp [Nat.shiftRight_eq_div_pow]
  omega

/-! ### Single bits -/

theorem bitSet_touch (b : Byte) : bitSet b 0x01 = b.getLsbD 0 := by revert b; decide
theorem bitSet_button1 (b : Byte) : bitSet b 0x02 = b.getLsbD 1 := by revert b; decide
theorem bitSet_eraser (b : Byte) : bitSet b 0x04 = b.getLsbD 2 := by revert b; decide
theorem bitSet_button2 (b : Byte) : bitSet b 0x10 = b.getLsbD 4 := by revert b; decide
theorem bitSet_proximity (b : Byte) : bitSet b 0x20 = b.getLsbD 5 := by revert b; decide

/-- The discriminator looks at bits 2 and 3 together (spec/30_encoding.md R83). -/
theorem bitSet_discriminator (b : Byte) : bitSet b 0x0C = (b.getLsbD 2 || b.getLsbD 3) := by
  revert b; decide

/-! ### VCOM -/

theorem vcomRaw_toNat (low high : Byte) : (vcomRaw low high).toNat = low.toNat + 256 * (high.toNat % 2) := by
  have := low.isLt
  have mask : ∀ n : Nat, n &&& (0x1FF : Half).toNat = n % 2 ^ 9 := fun n => Nat.and_two_pow_sub_one_eq_mod n 9
  unfold vcomRaw Config.vcomMask
  rw [BitVec.toNat_and, assemble_toNat, mask]
  omega

theorem vcomRawOf_toNat (m : Int) (h0 : 0 ≤ m) (h1 : m ≤ 5110) : (vcomRawOf m).toNat = (m / 10).toNat := by
  have mask : ∀ n : Nat, n &&& (0x1FF : Half).toNat = n % 2 ^ 9 := fun n => Nat.and_two_pow_sub_one_eq_mod n 9
  unfold vcomRawOf Config.vcomMask Config.vcomStepMv
  rw [BitVec.toNat_and, BitVec.toNat_ofNat, Int.tdiv_eq_ediv_of_nonneg h0, mask]
  omega

theorem vcomLow_toNat (raw : Half) : (vcomLow raw).toNat = raw.toNat % 256 := by
  have mask : ∀ n : Nat, n &&& (0xFF : Half).toNat = n % 2 ^ 8 := fun n => Nat.and_two_pow_sub_one_eq_mod n 8
  unfold vcomLow
  rw [BitVec.toNat_setWidth, BitVec.toNat_and, mask]
  omega

theorem vcomHigh_toNat (raw : Half) (h : raw.toNat < 512) : (vcomHigh raw).toNat = raw.toNat / 256 := by
  unfold vcomHigh
  simp [Nat.shiftRight_eq_div_pow, Nat.and_one_is_mod]
  omega

theorem faultIndex_toNat (v : Byte) : (faultIndex v).toNat = v.toNat / 2 := by
  have := v.isLt
  unfold faultIndex
  simp [Nat.shiftRight_eq_div_pow]
  omega

end Sys2Proof.Machine
end

