-- ==== Sys2Proof/Laws/Micro.lean ====
section
/-! SUPPORT. One equation per micro-step that uses a port: which way it goes for each answer the environment gives
next, in terms of the primitive's effect (`(p.railWrite true).2`, ...). Beside `Laws.State` these say everything a
micro-step can do. -/

namespace Sys2Proof.Machine

/-! ### The digitizer side -/

theorem qryTransfer_eq (d : Dig) : Machine.qryTransfer d = match d.nextTransfer with
    | .err e => (d.busTransfer qryMessages).2.raise (.transport e)
    | .short _ => (d.busTransfer qryMessages).2.raise .protocol
    | .full rx => (d.busTransfer qryMessages).2.goto (.qryLatch rx) := by
  simp only [Machine.qryTransfer, Dig.busTransfer_eq]
  cases d.nextTransfer <;> rfl

theorem penRecv_eq (d : Dig) : Machine.penRecv d = match d.nextRecv with
    | .err _ => d.busRecv.2.complete none
    | .ok raw => d.busRecv.2.goto (.penDecode raw) := by
  simp only [Machine.penRecv, Dig.busRecv_eq]
  cases d.nextRecv <;> rfl

/-! ### The power side -/

theorem railEnWrite_eq (p : Pwr) : railEnWrite p = match p.nextRailWrite with
    | .err e _ => (p.railWrite true).2.raise (.transport e)
    | .ok => (p.railWrite true).2.goto .enRail := by
  simp only [railEnWrite, Pwr.railWrite_eq]
  cases p.nextRailWrite <;> rfl

theorem railEnPoll_eq (t : Nat) (p : Pwr) : railEnPoll t p = match p.lineAt 0 with
    | .err e => p.gpioRead.2.goto (.enAbort e)
    | .level g => p.gpioRead.2.goto (.enCount t g) := by
  simp only [railEnPoll, Pwr.gpioRead_eq]
  cases p.lineAt 0 <;> rfl

theorem railEnSleep_eq (t : Nat) (p : Pwr) :
    railEnSleep t p = p.pollSleep.2.goto (p.enNext (t + p.sleepAt 1000 1500 0)) := by
  rw [← p.sleep_answer]
  rfl

theorem railDisWrite_eq (p : Pwr) : railDisWrite p = (p.railWrite false).2.goto (.disSleep p.nextRailWrite) := by
  simp only [railDisWrite, Pwr.railWrite_eq]

theorem railIsenQuery_eq (p : Pwr) : railIsenQuery p = match p.nextRailQuery with
    | .err e => p.railQuery.2.raise (.transport e)
    | .ok => p.railQuery.2.complete (.bit p.chip.railOn) := by
  simp only [railIsenQuery, Pwr.railQuery_eq]
  cases p.nextRailQuery <;> rfl

theorem railStatPoll_eq (p : Pwr) : railStatPoll p = match p.lineAt 0 with
    | .err e => p.gpioRead.2.raise (.gpioRead e)
    | .level g => p.gpioRead.2.goto (.statCount g) := by
  simp only [railStatPoll, Pwr.gpioRead_eq]
  cases p.lineAt 0 <;> rfl

theorem railStatSleep_eq (p : Pwr) : railStatSleep p = p.pollSleep.2.goto p.statNext :=
  rfl

theorem vcomRdmvLow_eq (p : Pwr) : vcomRdmvLow p = match p.nextVcomRead with
    | .err e => p.readVcomL.2.raise (.transport e)
    | .ok => p.readVcomL.2.goto (.rdmvHigh p.chip.vcomL) := by
  simp only [vcomRdmvLow, Pwr.readVcomL_eq]
  cases p.nextVcomRead <;> rfl

theorem vcomRdmvHigh_eq (low : Byte) (p : Pwr) : vcomRdmvHigh low p = match p.nextVcomRead with
    | .err e => p.readVcomH.2.raise (.transport e)
    | .ok => p.readVcomH.2.complete (.int (vcomDecodeSigned low p.chip.vcomH)) := by
  simp only [vcomRdmvHigh, Pwr.readVcomH_eq]
  cases p.nextVcomRead <;> rfl

theorem vcomRduvLow_eq (p : Pwr) : vcomRduvLow p = match p.nextVcomRead with
    | .err e => p.readVcomL.2.raise (.transport e)
    | .ok => p.readVcomL.2.goto (.rduvHigh p.chip.vcomL) := by
  simp only [vcomRduvLow, Pwr.readVcomL_eq]
  cases p.nextVcomRead <;> rfl

theorem vcomRduvHigh_eq (low : Byte) (p : Pwr) : vcomRduvHigh low p = match p.nextVcomRead with
    | .err e => p.readVcomH.2.raise (.transport e)
    | .ok => p.readVcomH.2.complete (.int (vcomDecodeUv low p.chip.vcomH)) := by
  simp only [vcomRduvHigh, Pwr.readVcomH_eq]
  cases p.nextVcomRead <;> rfl

theorem vcomWrmvLow_eq (low high : Byte) (p : Pwr) : vcomWrmvLow low high p = match p.nextVcomWrite with
    | .err e _ => (p.writeVcomL low).2.raise (.transport e)
    | .ok => (p.writeVcomL low).2.goto (.wrmvHigh high) := by
  simp only [vcomWrmvLow, Pwr.writeVcomL_eq]
  cases p.nextVcomWrite <;> rfl

theorem vcomWrmvHigh_eq (high : Byte) (p : Pwr) : vcomWrmvHigh high p = match p.nextVcomWrite with
    | .err e _ => (p.writeVcomH high).2.raise (.transport e)
    | .ok => (p.writeVcomH high).2.complete .ok := by
  simp only [vcomWrmvHigh, Pwr.writeVcomH_eq]
  cases p.nextVcomWrite <;> rfl

theorem fltStateRead_eq (p : Pwr) : Machine.fltStateRead p = match p.nextFaultRead with
    | .err e => p.readFault.2.raise (.transport e)
    | .ok v => p.readFault.2.complete (fltStateOf v) := by
  simp only [Machine.fltStateRead, Pwr.readFault_eq]
  cases p.nextFaultRead <;> rfl

theorem fltPgRead_eq (p : Pwr) : Machine.fltPgRead p = match p.nextFaultRead with
    | .err e => p.readFault.2.raise (.transport e)
    | .ok v => p.readFault.2.complete (.bit (fltPgBit v)) := by
  simp only [Machine.fltPgRead, Pwr.readFault_eq]
  cases p.nextFaultRead <;> rfl

/-- What a micro-step of `PWR` leaves of `rail`, phase by phase (spec/42_power_rail_sequencer.md R168). -/
theorem Pwr.micro_rail (p : Pwr) : p.micro.1.rail = match p.phase with
    | .enRail => .enabling
    | .enGood _ => .enabled
    | .enAbort _ => .enabled
    | .enFail _ => .failed
    | .forcedRail _ => .disabled
    | .disRail => .disabled
    | _ => p.rail := by
  cases hp : p.phase with
  | enWrite => simp only [Pwr.micro, hp, railEnWrite_eq]; cases p.nextRailWrite <;> simp
  | enPoll t => simp only [Pwr.micro, hp, railEnPoll_eq]; cases p.lineAt 0 <;> simp
  | enSleep t => simp [Pwr.micro, hp, railEnSleep_eq, Pwr.pollSleep]
  | enReport t => simp [Pwr.micro, hp, railEnReport]
  | enTimeout t => simp [Pwr.micro, hp, railEnTimeout]
  | forcedWrite t => simp [Pwr.micro, hp, railForcedWrite]
  | forcedSleep t => simp [Pwr.micro, hp, Pwr.rampSleep]
  | disWrite => simp [Pwr.micro, hp, railDisWrite_eq]
  | disSleep w => cases w <;> simp [Pwr.micro, hp, railDisSleep, Pwr.rampSleep]
  | isenQuery => simp only [Pwr.micro, hp, railIsenQuery_eq]; cases p.nextRailQuery <;> simp
  | statPoll => simp only [Pwr.micro, hp, railStatPoll_eq]; cases p.lineAt 0 <;> simp
  | statSleep => simp [Pwr.micro, hp, railStatSleep_eq, Pwr.pollSleep]
  | rdmvLow => simp only [Pwr.micro, hp, vcomRdmvLow_eq]; cases p.nextVcomRead <;> simp
  | rdmvHigh low => simp only [Pwr.micro, hp, vcomRdmvHigh_eq]; cases p.nextVcomRead <;> simp
  | rduvLow => simp only [Pwr.micro, hp, vcomRduvLow_eq]; cases p.nextVcomRead <;> simp
  | rduvHigh low => simp only [Pwr.micro, hp, vcomRduvHigh_eq]; cases p.nextVcomRead <;> simp
  | wrmvLow low high => simp only [Pwr.micro, hp, vcomWrmvLow_eq]; cases p.nextVcomWrite <;> simp
  | wrmvHigh high => simp only [Pwr.micro, hp, vcomWrmvHigh_eq]; cases p.nextVcomWrite <;> simp
  | fltStateRead => simp only [Pwr.micro, hp, fltStateRead_eq]; cases p.nextFaultRead <;> simp
  | fltPgRead => simp only [Pwr.micro, hp, fltPgRead_eq]; cases p.nextFaultRead <;> simp
  | _ => simp [Pwr.micro, hp]

end Sys2Proof.Machine
end

