-- ==== Sys2Proof/Laws/PerInstr.lean ====
section
/-! SUPPORT. The per-instruction family `CommandFrame`: how the command of each operation is laid out
(spec/30_encoding.md R95): its code is one of the map's, its unit and its place in the unit are the two nibbles of
that code, and its operands take the bytes of R95's operand column (log entry 1). -/

namespace Sys2Proof.Laws.CommandFrame

open Sys2Proof

/-- The codes of R95's table, in its order. -/
def codes : List Byte :=
  [0x00, 0x10, 0x11, 0x20, 0x21, 0x22, 0x23, 0x30, 0x31, 0x32, 0x33, 0x40, 0x41, 0x42, 0x43, 0x44, 0x45,
   0x50, 0x51]

/-- The operand bytes that follow a code (R95's operand column): a query buffer, a pen report and a ToolState, two
bytes, a signed 32-bit integer, or nothing. -/
def operandBytes (code : Byte) : Nat :=
  if code = 0x11 then 21
  else if code = 0x21 then 22 + 1
  else if code = 0x40 ∨ code = 0x41 then 2
  else if code = 0x42 ∨ code = 0x45 then 4
  else 0

/-- The layout of one operation's command. -/
def Statement (i : Instr) : Prop :=
  i.code ∈ codes ∧ (encode i).head? = some i.code ∧ (encode i).length = 1 + operandBytes i.code ∧
    (encode i).length ≤ 1 + maxOperandBytes

theorem sysReset : Statement .sysReset := ⟨by decide, rfl, rfl, by decide⟩

theorem qryXfer : Statement .qryXfer := ⟨by decide, rfl, rfl, by decide⟩

theorem qryDec (qbuf : QueryBuf) : Statement (.qryDec qbuf) := by
  simp [Statement, codes, encode, Instr.code, Instr.operands, operandBytes, maxOperandBytes]

theorem penIrq : Statement .penIrq := ⟨by decide, rfl, rfl, by decide⟩

theorem penDec (raw : ReportBuf) (ts : ToolState) : Statement (.penDec raw ts) := by
  simp [Statement, codes, encode, Instr.code, Instr.operands, operandBytes, maxOperandBytes]

theorem irqEn : Statement .irqEn := ⟨by decide, rfl, rfl, by decide⟩

theorem irqDis : Statement .irqDis := ⟨by decide, rfl, rfl, by decide⟩

theorem railEn : Statement .railEn := ⟨by decide, rfl, rfl, by decide⟩

theorem railDis : Statement .railDis := ⟨by decide, rfl, rfl, by decide⟩

theorem railIsen : Statement .railIsen := ⟨by decide, rfl, rfl, by decide⟩

theorem railStat : Statement .railStat := ⟨by decide, rfl, rfl, by decide⟩

theorem vcomDec (low : Byte) (high : Byte) : Statement (.vcomDec low high) := by
  simp [Statement, codes, encode, Instr.code, Instr.operands, operandBytes, maxOperandBytes]

theorem vcomDecuv (low : Byte) (high : Byte) : Statement (.vcomDecuv low high) := by
  simp [Statement, codes, encode, Instr.code, Instr.operands, operandBytes, maxOperandBytes]

theorem vcomEnc (m : Int) : Statement (.vcomEnc m) := by
  simp [Statement, codes, encode, Instr.code, Instr.operands, operandBytes, maxOperandBytes, signed32Bytes]

theorem vcomRdmv : Statement .vcomRdmv := ⟨by decide, rfl, rfl, by decide⟩

theorem vcomRduv : Statement .vcomRduv := ⟨by decide, rfl, rfl, by decide⟩

theorem vcomWrmv (v : Int) : Statement (.vcomWrmv v) := by
  simp [Statement, codes, encode, Instr.code, Instr.operands, operandBytes, maxOperandBytes, signed32Bytes]

theorem fltState : Statement .fltState := ⟨by decide, rfl, rfl, by decide⟩

theorem fltPg : Statement .fltPg := ⟨by decide, rfl, rfl, by decide⟩

end Sys2Proof.Laws.CommandFrame
end

