-- ==== Sys2Proof/Laws/Poll.lean ====
section
/-! SUPPORT. The power-good poll loop (spec/42_power_rail_sequencer.md R163, R177): what `m` reads of 0 and their
sleeps do, and how long they last. -/

namespace Sys2Proof.Machine

/-- What the `m` reads of 0 and their sleeps have made of `p`: `q`, in which the answers go on from there. -/
structure Polled (p q : Pwr) (m : Nat) : Prop where
  iter : q.iter.toNat = p.iter.toNat + m
  pgLast : q.pgLast = if m = 0 then p.pgLast else false
  rail : q.rail = p.rail
  chip : q.chip = p.chip
  busy : q.busy = p.busy
  railWrites : q.railWrites = p.railWrites
  overheads : q.overheads = p.overheads
  lineAt : ∀ k, q.lineAt k = p.lineAt (m + k)
  sleepAt : ∀ lo hi k, q.sleepAt lo hi k = p.sleepAt lo hi (m + k)
  trace : q.trace = p.trace ++ p.pollTrace m

theorem Polled.zero (p : Pwr) : Polled p p 0 where
  iter := rfl
  pgLast := rfl
  rail := rfl
  chip := rfl
  busy := rfl
  railWrites := rfl
  overheads := rfl
  lineAt := by simp
  sleepAt := by simp
  trace := by simp [Pwr.pollTrace]

/-- One more read of 0 and its sleep. -/
theorem Polled.succ {p q r : Pwr} {m : Nat} (h : Polled p q m) (h1 : Polled q r 1) : Polled p r (m + 1) where
  iter := by rw [h1.iter, h.iter]; omega
  pgLast := by simpa using h1.pgLast
  rail := h1.rail.trans h.rail
  chip := h1.chip.trans h.chip
  busy := h1.busy.trans h.busy
  railWrites := h1.railWrites.trans h.railWrites
  overheads := h1.overheads.trans h.overheads
  lineAt k := by rw [h1.lineAt, h.lineAt]; congr 1; omega
  sleepAt lo hi k := by rw [h1.sleepAt, h.sleepAt]; congr 1; omega
  trace := by
    rw [h1.trace, h.trace]
    simp [Pwr.pollTrace, h.lineAt, h.sleepAt]

/-- A counted and kept read of 0 and the sleep after it, in whatever loop. -/
theorem polled_once {p : Pwr} (ph : PwrPhase) (hi : p.iter.toNat < 500) (h0 : p.lineAt 0 = .level false) :
    Polled p ((((p.gpioRead.2.setIter (p.iter + 1)).setPgLast false).pollSleep.2).goto ph) 1 where
  iter := iter_succ hi
  pgLast := rfl
  rail := rfl
  chip := rfl
  busy := rfl
  railWrites := rfl
  overheads := rfl
  lineAt k := (Oracle.next_snd_nth _ _ k).trans (by rw [Nat.add_comm]; rfl)
  sleepAt lo hi k := congrArg (sleepTime lo hi) ((Oracle.next_snd_nth _ _ k).trans (by rw [Nat.add_comm]; rfl))
  trace := by
    simp [Pwr.pollTrace, Pwr.gpioRead_answer, Pwr.pollSleep, Pwr.sleep_eq, Pwr.sleepAt, h0]

/-- In `RAIL.EN`: one read of 0, counted and kept, and its sleep. -/
theorem enPoll_once {p : Pwr} {t : Nat} (hp : p.phase = .enPoll t) (hi : p.iter.toNat < 500)
    (h0 : p.lineAt 0 = .level false) :
    ∃ q : Pwr, p.finish = q.finish ∧ q.phase = q.enNext (t + p.sleepAt 1000 1500 0) ∧ Polled p q 1 := by
  have s1 : p.micro = (p.gpioRead.2.goto (.enCount t false), none) := by
    simp only [Pwr.micro, hp, railEnPoll_eq, h0]
  refine ⟨_, (Pwr.finish_of_goto (by simp [hp]) s1).trans ((Pwr.finish_of_goto (by simp) rfl).trans
    ((Pwr.finish_of_goto (by simp) rfl).trans (Pwr.finish_of_goto (by simp [enRead])
      (congrArg (·, none) (railEnSleep_eq t _))))), rfl, polled_once _ hi h0⟩

/-- In `RAIL.EN`: `m` reads of 0 and their sleeps. -/
theorem enPoll_many {p : Pwr} {t : Nat} (hp : p.phase = p.enNext t) (m : Nat) (hi : p.iter.toNat + m ≤ 500)
    (h0 : ∀ j, j < m → p.lineAt j = .level false) :
    ∃ q : Pwr, p.finish = q.finish ∧ q.phase = q.enNext (t + p.pollTime m) ∧ Polled p q m := by
  induction m with
  | zero => exact ⟨p, rfl, by simpa [Pwr.pollTime] using hp, Polled.zero p⟩
  | succ m ih =>
    obtain ⟨q, e, q1, hq⟩ := ih (by omega) (fun j hj => h0 j (by omega))
    have hiq : q.iter.toNat < 500 := by have := hq.iter; omega
    obtain ⟨r, e', r1, hr⟩ := enPoll_once (q1.trans (if_pos hiq)) hiq (by rw [hq.lineAt]; exact h0 m (by omega))
    refine ⟨r, e.trans e', ?_, hq.succ hr⟩
    rw [r1, hq.sleepAt, Nat.add_assoc]
    rfl

/-- In `RAIL.STAT`: one read of 0, counted and kept, and its sleep. -/
theorem statPoll_once {p : Pwr} (hp : p.phase = .statPoll) (hi : p.iter.toNat < 500)
    (h0 : p.lineAt 0 = .level false) :
    ∃ q : Pwr, p.finish = q.finish ∧ q.phase = q.statNext ∧ Polled p q 1 := by
  have s1 : p.micro = (p.gpioRead.2.goto (.statCount false), none) := by
    simp only [Pwr.micro, hp, railStatPoll_eq, h0]
  refine ⟨_, (Pwr.finish_of_goto (by simp [hp]) s1).trans ((Pwr.finish_of_goto (by simp) rfl).trans
    ((Pwr.finish_of_goto (by simp) rfl).trans (Pwr.finish_of_goto (by simp [statRead])
      (congrArg (·, none) (railStatSleep_eq _))))), rfl, polled_once _ hi h0⟩

/-- In `RAIL.STAT`: `m` reads of 0 and their sleeps. -/
theorem statPoll_many {p : Pwr} (hp : p.phase = p.statNext) (m : Nat) (hi : p.iter.toNat + m ≤ 500)
    (h0 : ∀ j, j < m → p.lineAt j = .level false) :
    ∃ q : Pwr, p.finish = q.finish ∧ q.phase = q.statNext ∧ Polled p q m := by
  induction m with
  | zero => exact ⟨p, rfl, hp, Polled.zero p⟩
  | succ m ih =>
    obtain ⟨q, e, q1, hq⟩ := ih (by omega) (fun j hj => h0 j (by omega))
    have hiq : q.iter.toNat < 500 := by have := hq.iter; omega
    obtain ⟨r, e', r1, hr⟩ := statPoll_once (q1.trans (if_pos hiq)) hiq (by rw [hq.lineAt]; exact h0 m (by omega))
    exact ⟨r, e.trans e', r1, hq.succ hr⟩

/-- `k` poll sleeps last at least `k` milliseconds (R163, R167). -/
theorem Pwr.pollTime_ge (p : Pwr) (k : Nat) : 1000 * k ≤ p.pollTime k := by
  induction k with
  | zero => simp
  | succ k ih =>
    have := sleepTime_ge Config.pollSleepMin Config.pollSleepMax (p.sleeps.nth Config.freeSleep k)
    simp only [Pwr.pollTime, Pwr.sleepAt, Config.pollSleepMin] at *
    omega

/-- `k` poll sleeps last at most `1.5 k` milliseconds (R163). -/
theorem Pwr.pollTime_le (p : Pwr) (k : Nat) : p.pollTime k ≤ 1500 * k := by
  induction k with
  | zero => simp [Pwr.pollTime]
  | succ k ih =>
    have := sleepTime_le (lo := Config.pollSleepMin) (hi := Config.pollSleepMax) (by decide)
      (p.sleeps.nth Config.freeSleep k)
    simp only [Pwr.pollTime, Pwr.sleepAt, Config.pollSleepMax] at *
    omega

end Sys2Proof.Machine
end

