-- ==== Sys2Proof/Laws/Run.lean ====
section
/-! SUPPORT. What a number of steps does: a first step that answers a next state, the steps `advance`, and a
schedule of one agent as a bounded run of that agent. -/

namespace Sys2Proof.Machine

/-- After a first step that answers a next state come the others. -/
theorem runSteps_of_next {s t : State} (n : Nat) (h : step s = .next t) : runSteps (n + 1) s = runSteps n t := by
  simp only [runSteps, h]

/-- A micro-step does not look at the inbox. -/
theorem State.advance_inbox (a : Agent) (s : State) (l : List Move) :
    State.advance a { s with inbox := l } = { State.advance a s with inbox := l } := by
  cases a <;> rfl

/-- A step on the move `advance` is a micro-step. -/
theorem step_advance (a : Agent) (s : State) (l : List Move) :
    step { s with inbox := .advance a :: l } = .next (State.advance a { s with inbox := l }) :=
  rfl

/-- Micro-steps of `DIG` alone are a bounded run of its half. -/
theorem State.schedule_dig (n : Nat) (s : State) :
    s.schedule (List.replicate n .dig) = s.putDig (s.dig.run n) := by
  induction n generalizing s with
  | zero => simp [State.schedule, Dig.run, State.putDig]
  | succ n ih =>
    simp only [List.replicate_succ, State.schedule, ih, State.advance]
    by_cases h : s.dig.phase = .idle
    · have hm : s.dig.micro = (s.dig, none) := by simp [Dig.micro, h]
      have hr : s.dig.run n = (s.dig, none) := by cases n <;> simp [Dig.run, h]
      simp [hm, State.putDig, hr, Dig.run, h]
    · simp only [Dig.run, h, if_false]
      have hres := s.dig.micro_result
      rcases e : s.dig.micro with ⟨d, _ | r⟩
      · simp [State.putDig]
      · have hd : d.phase = .idle := by simpa [e] using (hres r (by simp [e])).2
        have hr : d.run n = (d, none) := by cases n <;> simp [Dig.run, hd]
        simp [State.putDig, hr]

/-- Micro-steps of `PWR` alone are a bounded run of its half. -/
theorem State.schedule_pwr (n : Nat) (s : State) :
    s.schedule (List.replicate n .pwr) = s.putPwr (s.pwr.run n) := by
  induction n generalizing s with
  | zero => simp [State.schedule, Pwr.run, State.putPwr]
  | succ n ih =>
    simp only [List.replicate_succ, State.schedule, ih, State.advance]
    by_cases h : s.pwr.phase = .idle
    · have hm : s.pwr.micro = (s.pwr, none) := by simp [Pwr.micro, h]
      have hr : s.pwr.run n = (s.pwr, none) := by cases n <;> simp [Pwr.run, h]
      simp [hm, State.putPwr, hr, Pwr.run, h]
    · simp only [Pwr.run, h, if_false]
      have hres := s.pwr.micro_result
      rcases e : s.pwr.micro with ⟨p, _ | r⟩
      · simp [State.putPwr]
      · have hp : p.phase = .idle := by simpa [e] using (hres r (by simp [e])).2
        have hr : p.run n = (p, none) := by cases n <;> simp [Pwr.run, hp]
        simp [State.putPwr, hr]

end Sys2Proof.Machine
end

