-- ==== Sys2Proof/Tests/Slice0.lean ====
section
/-! SUPPORT. The model's own tests: words of spec/30_encoding.md R95 written out, the vectors of
spec/95_test_vectors.md as single steps, and for every statement with hypotheses a state and operands that meet
them together (the theorems named witness_...). Expected values are the spec's. -/

namespace Sys2Proof.Tests
open Sys2Proof Sys2Proof.Machine

/-! ### Helpers -/

/-- What is left when an outcome is a next state. -/
def after (o : Host.Outcome State Fault Refusal) : Option State :=
  match o with
  | .next s => some s
  | .fault _ => none
  | .refused _ => none

/-- A script of answers. -/
def answers {α : Type} (l : List α) : Oracle α := { script := l, used := 0 }

/-- Power-on with these moves to come. -/
def moves (l : List Move) : State := { State.reset with inbox := l }

/-- The digitizer side gated on with an edge pending, and these report reads to come. -/
def withEdge (ts : ToolState) (l : List RecvAnswer) : State :=
  { State.reset with dig := { Dig.reset with
      irqEn := true, irqPend := true, tool := ts, reportReads := answers l } }

/-- The digitizer side with a full latch. -/
def latched : State :=
  { State.reset with dig := { Dig.reset with caps := { valid := true, limits := zeroLimits } } }

/-- The digitizer side at power-on with these transfers to come. -/
def withTransfers (l : List TransferAnswer) : State :=
  { State.reset with dig := { Dig.reset with transfers := answers l } }

/-- The power side with `rail`, and these answers of `RailWrite` and `GpioRead` to come; every sleep takes its
lower bound, and the port accesses no time. -/
def withRail (r : RailState) (w : List WriteAnswer) (g : List LineAnswer) : State :=
  { State.reset with pwr := { Pwr.reset with
      rail := r, railWrites := answers w, lineReads := answers g, sleeps := answers (List.replicate 501 0),
      overheads := answers [0] } }

/-- The power side with a VCOM pair, and these answers to come. -/
def withVcom (low high : Byte) (r : List ReadAnswer) (w : List WriteAnswer) : State :=
  { State.reset with pwr := { Pwr.reset with
      chip := { vcomL := low, vcomH := high, railOn := false, fault := 0 }, vcomReads := answers r,
      vcomWrites := answers w } }

/-- The power side with these reads of the fault register to come. -/
def withFault (l : List ByteAnswer) : State :=
  { State.reset with pwr := { Pwr.reset with faultReads := answers l } }

/-- The power side with these register-state queries to come. -/
def withQuery (on : Bool) (l : List ReadAnswer) : State :=
  { State.reset with pwr := { Pwr.reset with
      chip := { Pwr.reset.chip with railOn := on }, railQueries := answers l } }

/-- `IRQ.EN` in flight. -/
def digBusy : State :=
  { State.reset with dig := { Dig.reset with busy := true, phase := .irqGate true } }

/-- `FLT.PG` in flight, and its read to come. -/
def pwrBusy : State :=
  { State.reset with pwr := { Pwr.reset with busy := true, phase := .fltPgRead, faultReads := answers [.ok 0x05] } }

/-- Buffer Q1. -/
def q1 : QueryBuf :=
  #v[0x15, 0x00, 0x03, 0x00, 0x0A, 0x00, 0x08, 0x58, 0x02, 0x11, 0x22, 0xFF, 0x0F, 0x34, 0x12, 0xFF, 0x3F,
     0x28, 0x23, 0x28, 0x23]

/-- The limits of Q1. -/
def limitsQ1 : Limits :=
  { xMax := 2560, yMax := 2048, pressureMax := 4095, fwVersion := 4660, distanceMax := 255,
    distancePhysicalMax := 63, tiltXMax := 9000, tiltYMax := 9000 }

/-- A report: offsets 0 to 14, then seven zero bytes. -/
def report (b : Vector Byte 15) : ReportBuf := b ++ Vector.replicate 7 (0 : Byte)

/-- Report P1. -/
def p1 : ReportBuf :=
  report #v[0x16, 0x00, 0x02, 0x20, 0xE8, 0x03, 0xD0, 0x07, 0x00, 0x00, 0x28, 0x00, 0x00, 0x00, 0x00]

/-- Report P2. -/
def p2 : ReportBuf :=
  report #v[0x16, 0x00, 0x02, 0x21, 0xE8, 0x03, 0xD1, 0x07, 0xD2, 0x04, 0x00, 0xD4, 0xFE, 0x2D, 0x00]

/-- Report P3. -/
def p3 : ReportBuf :=
  report #v[0x16, 0x00, 0x02, 0x2D, 0x34, 0x12, 0xCD, 0xAB, 0xFF, 0x0F, 0x00, 0xFF, 0xFF, 0x00, 0x80]

/-! ### WellFormed: an ill-formed term for each check is refused, the ends of the range are not (R90, R14) -/

theorem test_wf_enc_high : (Instr.vcomEnc 2147483648).wellFormed = false := by decide
theorem test_wf_enc_low : (Instr.vcomEnc (-2147483649)).wellFormed = false := by decide
theorem test_wf_wrmv_high : (Instr.vcomWrmv 2147483648).wellFormed = false := by decide
theorem test_wf_wrmv_low : (Instr.vcomWrmv (-2147483649)).wellFormed = false := by decide
theorem test_wf_ends : (Instr.vcomEnc 2147483647).wellFormed = true ∧
    (Instr.vcomWrmv (-2147483648)).wellFormed = true := by decide

/-! ### Decode: each constructor from its code in R95's table; operands by R55, R87, R90 -/

theorem test_decode_sysReset : decode [0x00] = .ok .sysReset [] := by decide
theorem test_decode_qryXfer : decode [0x10] = .ok .qryXfer [] := by decide
theorem test_decode_qryDec : decode (0x11 :: q1.toList) = .ok (.qryDec q1) [] := by decide
theorem test_decode_penIrq : decode [0x20] = .ok .penIrq [] := by decide
/-- Bit 0 of the ToolState byte is prox, bit 1 is kind (R87). -/
theorem test_decode_penDec : decode (0x21 :: (p2.toList ++ [0x01])) = .ok (.penDec p2 ⟨true, .pen⟩) [] ∧
    decode (0x21 :: (p2.toList ++ [0x02])) = .ok (.penDec p2 ⟨false, .rubber⟩) [] := by decide
theorem test_decode_irqEn : decode [0x22] = .ok .irqEn [] := by decide
theorem test_decode_irqDis : decode [0x23] = .ok .irqDis [] := by decide
theorem test_decode_railEn : decode [0x30] = .ok .railEn [] := by decide
theorem test_decode_railDis : decode [0x31] = .ok .railDis [] := by decide
theorem test_decode_railIsen : decode [0x32] = .ok .railIsen [] := by decide
theorem test_decode_railStat : decode [0x33] = .ok .railStat [] := by decide
theorem test_decode_vcomDec : decode [0x40, 0xF4, 0x01] = .ok (.vcomDec 0xF4 0x01) [] := by decide
theorem test_decode_vcomDecuv : decode [0x41, 0x7D, 0xFE] = .ok (.vcomDecuv 0x7D 0xFE) [] := by decide
theorem test_decode_vcomEnc : decode [0x42, 0x88, 0x13, 0x00, 0x00] = .ok (.vcomEnc 5000) [] := by decide
theorem test_decode_vcomRdmv : decode [0x43] = .ok .vcomRdmv [] := by decide
theorem test_decode_vcomRduv : decode [0x44] = .ok .vcomRduv [] := by decide
theorem test_decode_vcomWrmv : decode [0x45, 0x3C, 0xF6, 0xFF, 0xFF] = .ok (.vcomWrmv (-2500)) [] := by decide
theorem test_decode_fltState : decode [0x50] = .ok .fltState [] := by decide
theorem test_decode_fltPg : decode [0x51] = .ok .fltPg [] := by decide

/-- The illegal codes of spec/95_test_vectors.md. -/
theorem test_decode_illegal :
    ([0x7F, 0x01, 0x12, 0x34, 0x46, 0x52, 0xFF] : List Byte).all
      (fun c => decode [c, 0, 0, 0, 0] == .bad (.illegalCommand c)) = true := by decide

theorem test_decode_short : decode [0x45, 0x3C, 0xF6, 0xFF] = .bad (.operandsMissing 0x45) ∧
    decode (0x21 :: p2.toList) = .bad (.operandsMissing 0x21) ∧
    decode (0x11 :: List.replicate 20 0) = .bad (.operandsMissing 0x11) ∧
    decode [0x40, 0x01] = .bad (.operandsMissing 0x40) := by decide

/-- Operand bytes above the table's eight bits are zeros. -/
theorem test_table_word : decodeTableWord 8 0x45 = some (.vcomWrmv 0) ∧
    decodeTableWord 8 0x20 = some .penIrq ∧ decodeTableWord 8 0x7F = none := by decide

/-- A placed word is the next operation; for `PEN.IRQ` the edge is. -/
theorem test_withFetchWord : (State.reset.withFetchWord 8 0x22).inbox.head? =
      some (.command 0x22 (List.replicate 23 0)) ∧
    (State.reset.withFetchWord 8 0x20).inbox = [.service] ∧
    (State.reset.withFetchWord 8 0x20).dig.irqPend = true := by decide

/-! ### SYS -/

/-- Program A line 1, over a state that is not at reset: `rail`, `iter`, `irq_en` go back, the chip stays. -/
theorem test_sysReset : (after (exec .sysReset
      { State.reset with
        dig := { Dig.reset with irqEn := true, tool := ⟨true, .rubber⟩, sink := [.commit] }
        pwr := { Pwr.reset with rail := .enabled, iter := 3, chip := { Pwr.reset.chip with railOn := true } } })).map
      (fun t => (t.results, t.dig.irqEn, t.pwr.rail, t.pwr.iter, t.pwr.chip.railOn)) =
    some ([.ok], false, .disabled, 0, true) := by decide

/-! ### QRY -/

/-- Q1. -/
theorem test_qryDec_q1 : (after (exec (.qryDec q1) State.reset)).map (·.results) = some [.limits limitsQ1] := by
  decide
/-- Q5: the tilt limits are unsigned. -/
theorem test_qryDec_q5 : (after (exec (.qryDec (Vector.replicate 21 0xFF)) State.reset)).map (·.results) =
    some [.limits ⟨65535, 65535, 65535, 65535, 255, 255, 65535, 65535⟩] := by decide
/-- `QRY.DEC` while `IRQ.EN` is in flight waits for its end (R10, R62, U7). -/
theorem test_qryDec_waits : (after (exec (.qryDec q1) digBusy)).map (fun t => (t.results, t.dig.irqEn, t.dig.busy)) =
    some ([.ok, .limits limitsQ1], true, false) := by decide
/-- `caps.valid` is readable at any time (R22). -/
theorem test_readCapsValid : (after (step (moves [.readCapsValid]))).map (·.results) = some [.bit false] ∧
    (after (step { latched with inbox := [.readCapsValid] })).map (·.results) = some [.bit true] := by decide
/-- X1, from the transfer on. -/
theorem test_qryXfer_x1 : (Dig.finish { (withTransfers [.full q1]).dig with phase := .qryTransfer }).2 =
      some (.limits limitsQ1) ∧
    (Dig.finish { (withTransfers [.full q1]).dig with phase := .qryTransfer }).1.caps = ⟨true, limitsQ1⟩ := by
  decide
/-- X5: refused before any port. -/
theorem test_qryXfer_x5 : (after (exec .qryXfer latched)).map (fun t => (t.results, t.dig.trace, t.dig.caps.valid)) =
    some ([.error .sequence], [], true) := by decide

/-! ### PEN -/

/-- P2: byte order, and a negative tilt. -/
theorem test_penDec_p2 : (after (exec (.penDec p2 ⟨true, .pen⟩) State.reset)).map (·.results) =
    some [.sample ⟨true, false, false, false, true, .pen, 1000, 2001, 1234, 0, -300, 45⟩ ⟨true, .pen⟩] := by
  decide
/-- P9: previous 0 and current 0, bit 3 alone makes a Rubber. -/
theorem test_penDec_p9 : (after (exec (.penDec
      (report #v[0x16, 0x00, 0x02, 0x08, 0, 0, 0, 0, 0, 0, 0, 0, 0, 0, 0]) ⟨false, .pen⟩) State.reset)).map
      (·.results) =
    some [.sample ⟨false, false, false, false, false, .rubber, 0, 0, 0, 0, 0, 0⟩ ⟨false, .rubber⟩] := by decide
/-- P3: the kind is retained mid-stroke, `y` is unsigned, `tilt_y` is the most negative value. -/
theorem test_penDecode_p3 : penDecode p3 ⟨true, .pen⟩ =
    (⟨true, true, false, false, true, .pen, 4660, 43981, 4095, 0, -1, -32768⟩, ⟨true, .pen⟩) := by decide
/-- I1: twelve fields and a Commit, no result. -/
theorem test_penIrq_i1 : (after (exec .penIrq (withEdge ⟨false, .rubber⟩ [.ok p1]))).map
      (fun t => (t.dig.sink, t.dig.tool, t.results, t.dig.irqPend)) =
    some ([.field .touch (.flag false), .field .eraser (.flag false), .field .stylusButton1 (.flag false),
      .field .stylusButton2 (.flag false), .field .inProximity (.flag true), .field .toolKind (.kind .pen),
      .field .x (.axis 1000), .field .y (.axis 2000), .field .pressure (.axis 0), .field .distance (.axis 40),
      .field .tiltX (.axis 0), .field .tiltY (.axis 0), .commit], ⟨true, .pen⟩, [], false) := by decide
/-- I2: the read error is swallowed. -/
theorem test_penIrq_i2 : (after (exec .penIrq (withEdge ⟨true, .pen⟩ [.err 5]))).map
      (fun t => (t.dig.sink, t.dig.tool, t.results, t.dig.irqPend, t.dig.busy)) =
    some ([], ⟨true, .pen⟩, [], false, false) := by decide

/-! ### IRQ -/

/-- A held edge becomes pending (R247). -/
theorem test_irqEn : (after (exec .irqEn { State.reset with dig := { Dig.reset with irqHeld := true } })).map
      (fun t => (t.results, t.dig.irqEn, t.dig.irqPend, t.dig.irqHeld)) = some ([.ok], true, true, false) := by decide
/-- `IRQ.DIS` clears the enable and leaves `tool` (R147). -/
theorem test_irqDis : (after (exec .irqDis (withEdge ⟨true, .rubber⟩ []))).map
      (fun t => (t.results, t.dig.irqEn, t.dig.tool)) = some ([.ok], false, ⟨true, .rubber⟩) := by decide
/-- I3: with interrupts off no service starts. -/
theorem test_edge_i3 : (after (step (moves [.edge .held]))).map
      (fun t => (t.dig.irqPend, t.dig.irqHeld, t.dig.sink)) = some (false, true, []) := by decide

/-! ### RAIL; with every sleep at its lower bound -/

/-- T2. -/
theorem test_railEn_t2 : (after (exec .railEn
      (withRail .disabled [.ok] [.level false, .level false, .level true]))).map
      (fun t => (t.results, t.pwr.rail, t.pwr.pgLast, t.pwr.trace)) =
    some ([.enabled 2000 3], .enabled, true,
      [.railWrite true .ok, .gpioRead (.level false), .sleep 1000 1500 1000, .gpioRead (.level false),
       .sleep 1000 1500 1000, .gpioRead (.level true)]) := by decide
/-- T5: no roll-back. -/
theorem test_railEn_t5 : (after (exec .railEn (withRail .disabled [.ok] [.level false, .err 7]))).map
      (fun t => (t.results, t.pwr.rail, t.pwr.iter, t.pwr.pgLast, t.pwr.chip.railOn)) =
    some ([.error (.gpioRead 7)], .enabled, 1, false, true) := by decide
/-- R9 over R161's lines: the write, `rail`, `iter`, the read, `iter`, `pg_last`, `rail`, the draw of `elapsed`, and
alone at the end the busy bit (R160). -/
theorem test_railEn_micro : [0, 1, 2, 3, 4, 5, 6, 7, 8, 9].map (fun n =>
      let p := ({ (withRail .disabled [.ok] [.level true]).pwr with iter := 7 }.start .enWrite).steps n
      (p.trace.length, p.rail, p.iter, p.pgLast, p.overheads.script.length, p.busy)) =
    [(0, .disabled, 7, false, 1, true), (1, .disabled, 7, false, 1, true), (1, .enabling, 7, false, 1, true),
     (1, .enabling, 0, false, 1, true), (2, .enabling, 0, false, 1, true), (2, .enabling, 1, false, 1, true),
     (2, .enabling, 1, true, 1, true), (2, .enabled, 1, true, 1, true), (2, .enabled, 1, true, 0, true),
     (2, .enabled, 1, true, 0, false)] := by decide
/-- T7. -/
theorem test_railDis_t7 : (after (exec .railDis (withRail .enabled [.ok] []))).map
      (fun t => (t.results, t.pwr.rail, t.pwr.chip.railOn, t.pwr.trace)) =
    some ([.ok], .disabled, false, [.railWrite false .ok, .sleep 30000 35000 30000]) := by decide
/-- T8: the sleep is on the trace although the write failed. -/
theorem test_railDis_t8 : (after (exec .railDis (withRail .enabled [.err 4 false] []))).map
      (fun t => (t.results, t.pwr.rail, t.pwr.trace)) =
    some ([.error (.transport 4)], .enabled, [.railWrite false (.err 4 false), .sleep 30000 35000 30000]) := by
  decide
/-- Program B line 2: the chip's bit, not `rail`. -/
theorem test_railIsen_bit : (after (exec .railIsen (withQuery true [.ok]))).map
      (fun t => (t.results, t.pwr.rail)) = some ([.bit true], .disabled) := by decide
/-- T13. -/
theorem test_railIsen_t13 : (after (exec .railIsen (withQuery true [.err 9]))).map (·.results) =
    some [.error (.transport 9)] := by decide
/-- T15. -/
theorem test_railStat_t15 : (after (exec .railStat (withRail .enabled [] [.level false, .level true]))).map
      (fun t => (t.results, t.pwr.rail, t.pwr.iter, t.pwr.pgLast)) =
    some ([.bit true], .enabled, 2, true) := by decide
/-- T17. -/
theorem test_railStat_t17 : (after (exec .railStat (withRail .enabled [] [.err 3]))).map
      (fun t => (t.results, t.pwr.iter)) = some ([.error (.gpioRead 3)], 0) := by decide

/-! ### VCOM -/

/-- V21 and V24. -/
theorem test_vcomDec : (after (exec (.vcomDec 0xFF 0x01) State.reset)).map (·.results) = some [.int 5110] ∧
    (after (exec (.vcomDec 0x00 0x02) State.reset)).map (·.results) = some [.int 0] := by decide
/-- `VCOM.DEC` while `FLT.PG` is in flight waits for its end (R63, D25). -/
theorem test_vcomDec_waits : (after (exec (.vcomDec 0x7D 0x00) pwrBusy)).map (fun t => (t.results, t.pwr.busy)) =
    some ([.bit true, .int 1250], false) := by decide
/-- V25 and V23. -/
theorem test_vcomDecuv : (after (exec (.vcomDecuv 0xF4 0x81) State.reset)).map (·.results) =
      some [.int 5000000] ∧
    (after (exec (.vcomDecuv 0x7D 0xFE) State.reset)).map (·.results) = some [.int 1250000] := by decide
/-- V8 and V12. -/
theorem test_vcomEnc : (after (exec (.vcomEnc 2560) State.reset)).map (·.results) = some [.pair 0x00 0x01] ∧
    (after (exec (.vcomEnc 5000) State.reset)).map (·.results) = some [.pair 0xF4 0x01] := by decide
/-- V13 and V14. -/
theorem test_vcomEnc_range : (after (exec (.vcomEnc 5001) State.reset)).map (·.results) = some [.error .range] ∧
    (after (exec (.vcomEnc (-1)) State.reset)).map (·.results) = some [.error .range] := by decide
/-- W9. -/
theorem test_vcomRdmv_w9 : (after (exec .vcomRdmv (withVcom 0x00 0x01 [.ok, .ok] []))).map
      (fun t => (t.results, t.pwr.trace)) =
    some ([.int (-2560)], [.regRead .vcomL (.ok 0x00), .regRead .vcomH (.ok 0x01)]) := by decide
/-- W12: the high read is not made. -/
theorem test_vcomRdmv_w12 : (after (exec .vcomRdmv (withVcom 0x00 0x01 [.err 2, .ok] []))).map
      (fun t => (t.results, t.pwr.trace)) =
    some ([.error (.transport 2)], [.regRead .vcomL (.err 2)]) := by decide
/-- W10: not negated. -/
theorem test_vcomRduv_w10 : (after (exec .vcomRduv (withVcom 0x00 0x01 [.ok, .ok] []))).map (·.results) =
    some [.int 2560000] := by decide
/-- W1. -/
theorem test_vcomWrmv_w1 : (after (exec (.vcomWrmv (-2560)) (withVcom 0xAA 0xBB [] [.ok, .ok]))).map
      (fun t => (t.results, t.pwr.chip.vcomL, t.pwr.chip.vcomH)) = some ([.ok], 0x00, 0x01) := by decide
/-- W8, the torn write. -/
theorem test_vcomWrmv_w8 : (after (exec (.vcomWrmv (-1250)) (withVcom 0x00 0x01 [] [.ok, .err 6 false]))).map
      (fun t => (t.results, t.pwr.chip.vcomL, t.pwr.chip.vcomH)) =
    some ([.error (.transport 6)], 0x7D, 0x01) := by decide

/-! ### FLT -/

/-- F1. -/
theorem test_fltState_f1 : (after (exec .fltState (withFault [.ok 0x05]))).map (·.results) = some [.index 2] := by
  decide
/-- F7. -/
theorem test_fltState_f7 : (after (exec .fltState (withFault [.ok 0x20]))).map (·.results) =
    some [.error (.statusIndex 16)] := by decide
/-- F1 and F7. -/
theorem test_fltPg : (after (exec .fltPg (withFault [.ok 0x05]))).map (·.results) = some [.bit true] ∧
    (after (exec .fltPg (withFault [.ok 0x20]))).map (·.results) = some [.bit false] := by decide

/-! ### Witnesses: a state and operands that meet all hypotheses of a statement together -/

/-- A script of `n` reads of 0 and then `l`. -/
def zerosThen (n : Nat) (l : List LineAnswer) : List LineAnswer := List.replicate n (.level false) ++ l

/-- The reads before the last ones of `zerosThen` are 0. -/
theorem lineAt_zeros (r : RailState) (w : List WriteAnswer) (n : Nat) (l : List LineAnswer) (j : Nat)
    (h : j < n) : (withRail r w (zerosThen n l)).pwr.lineAt j = .level false := by
  have e : (zerosThen n l)[j]? = some (.level false) := by simp [zerosThen, List.getElem?_append, h]
  simp only [Pwr.lineAt, Oracle.nth, withRail, answers, e]

/-- The read after them. -/
theorem lineAt_after (r : RailState) (w : List WriteAnswer) (n : Nat) (a : LineAnswer) :
    (withRail r w (zerosThen n [a])).pwr.lineAt n = a := by
  have e : (zerosThen n [a])[n]? = some a := by simp [zerosThen]
  simp only [Pwr.lineAt, Oracle.nth, withRail, answers, e]

/-- A latched state in which the host next reads the limits; it meets the invariant. -/
def latchedReading : State := { latched with inbox := [.readCaps] }

theorem latchedReading_inv : latchedReading.Inv := by
  refine ⟨⟨by decide, by decide, by decide, by decide, ?_⟩, ⟨by decide, by decide, .inl rfl, trivial⟩⟩
  unfold wholeBatches
  decide

theorem witness_SysResetEffect : (withEdge ⟨true, .rubber⟩ []).idle := ⟨rfl, rfl⟩
/-- With a `PEN.IRQ` in flight. -/
theorem witness_SysResetLeavesEnvironment :
    ∃ s : State, s.pwr.phase = .idle ∧ s.dig.phase = .penRecv :=
  ⟨{ State.reset with dig := { Dig.reset with busy := true, phase := .penRecv } }, rfl, rfl⟩
theorem witness_DecodeOfEncode : (Instr.vcomWrmv (-2147483648)).wellFormed = true ∧
    (Instr.vcomEnc 2147483647).wellFormed = true ∧ (Instr.penDec p3 ⟨true, .rubber⟩).wellFormed = true := by decide
theorem witness_DecodedIsWellFormed : decode [0x45, 0x3C, 0xF6, 0xFF, 0xFF, 0x00] = .ok (.vcomWrmv (-2500)) [0x00] := by
  decide
theorem witness_StepRunsCommand : (moves [.command 0x40 [0xF4, 0x01]]).inbox = .command 0x40 [0xF4, 0x01] :: [] ∧
    decode (0x40 :: [0xF4, 0x01]) = .ok (.vcomDec 0xF4 0x01) [] ∧
    (Instr.vcomDec 0xF4 0x01).hostIssued = true := by decide
theorem witness_StepServesEdge_move : ∃ s : State, s.inbox = .service :: [] ∧ s.dig.phase = .idle ∧
    s.dig.irqPend = true ∧ s.dig.irqEn = true :=
  ⟨{ withEdge ⟨false, .pen⟩ [] with inbox := [.service] }, rfl, rfl, rfl, rfl⟩
theorem witness_StepServesEdge_alone : ∃ s : State, s.inbox = [] ∧ s.idle ∧ s.dig.irqPend = true ∧
    s.dig.irqEn = true :=
  ⟨withEdge ⟨false, .pen⟩ [], rfl, ⟨rfl, rfl⟩, rfl, rfl⟩
/-- A code outside the map, and `0x20`. -/
theorem witness_IllegalCommandRefused : ∀ c ∈ ([0x7F, 0x20, 0xFF, 0x46] : List Byte),
    c ∉ ([0x00, 0x10, 0x11, 0x21, 0x22, 0x23, 0x30, 0x31, 0x32, 0x33, 0x40, 0x41, 0x42, 0x43, 0x44, 0x45,
      0x50, 0x51] : List Byte) ∧
    (moves [.command c []]).inbox = .command c [] :: [] ∧ (moves [.launch c []]).inbox = .launch c [] :: [] := by
  decide
/-- At power-on; with a pending edge while interrupts are disabled; with moves of the environment and a host read
left; and before an edge that can be served. Each is idle and meets the invariant's busy bits. -/
theorem witness_EndedStaysEnded : State.reset.ended ∧ State.reset.Inv ∧ State.reset.idle ∧ State.reset.inbox = [] ∧
    ({ State.reset with dig := { Dig.reset with irqPend := true } } : State).ended ∧
    (moves [.line true, .readCapsValid]).ended ∧ (moves [.line true, .readCapsValid]).idle ∧
    ({ moves [.edge .lost] with dig := { Dig.reset with irqEn := true } } : State).ended := by
  refine ⟨⟨by simp [State.reset], rfl, rfl, .inl rfl⟩, ⟨⟨by decide, by decide, by decide, by decide, ?_⟩,
    ⟨by decide, by decide, .inl rfl, trivial⟩⟩, ⟨rfl, rfl⟩, rfl, ⟨by simp [State.reset], rfl, rfl, .inr rfl⟩,
    ⟨by decide, rfl, rfl, .inl rfl⟩, ⟨rfl, rfl⟩, ⟨by decide, rfl, rfl, .inl rfl⟩⟩
  unfold wholeBatches
  decide
/-- A run is not over while a command is left, an operation is in flight, or an edge can be served (R302). -/
theorem test_ended_not : ¬ (moves [.line true, .command 0x30 []]).ended ∧ ¬ digBusy.ended ∧ ¬ pwrBusy.ended ∧
    ¬ (withEdge ⟨false, .pen⟩ []).ended := by
  unfold State.ended
  decide
/-- Both reads, over a full and over an empty latch. -/
theorem witness_CapsReadOrFault : latchedReading.inbox = .readCaps :: [] ∧
    (moves [.readCaps]).inbox = .readCaps :: [] ∧ (moves [.readCapsValid]).inbox = .readCapsValid :: [] ∧
    ({ latched with inbox := [.readCapsValid] } : State).inbox = .readCapsValid :: [] := by decide
theorem witness_StepKeepsInv : ∃ t, latchedReading.Inv ∧ step latchedReading = .next t :=
  ⟨_, latchedReading_inv, rfl⟩
/-- An operation of each side, and a pure one of each with its side idle. -/
theorem witness_HalvesShareNothing : ∃ s t u v w : State, exec .qryXfer s = .next t ∧ sideOf .qryXfer = some .dig ∧
    exec .railEn s = .next u ∧ sideOf .railEn = some .pwr ∧
    exec (.qryDec q1) s = .next v ∧ agentOf (.qryDec q1) = none ∧ s.agentIdle .dig ∧
    exec (.vcomEnc 10) s = .next w ∧ agentOf (.vcomEnc 10) = none ∧ s.agentIdle .pwr :=
  ⟨State.reset, _, _, _, _, rfl, rfl, rfl, rfl, rfl, rfl, rfl, rfl, rfl, rfl⟩
/-- An operation of each side, over an operation in flight, and of none. -/
theorem witness_EveryOperationEnds : digBusy.dig.phase ≠ .idle ∧ pwrBusy.pwr.phase ≠ .idle ∧
    sideOf (.qryDec q1) = some .dig ∧ sideOf (.vcomDec 0 0) = some .pwr ∧ sideOf .sysReset = none := by decide
/-- Two states that agree on one half and differ on the other, both ways. -/
theorem witness_HalvesAreBlind : ∃ s s' s'' t t' t'' : State, exec .irqEn s = .next t ∧ exec .irqEn s' = .next t' ∧
    exec .irqEn s'' = .next t'' ∧ s.dig = s'.dig ∧ s.pwr ≠ s'.pwr ∧ s.pwr = s''.pwr ∧ s.dig ≠ s''.dig :=
  ⟨State.reset, withRail .enabled [] [], latched, _, _, _, rfl, rfl, rfl, rfl, by decide, rfl, by decide⟩
/-- A frame for either agent and one for none, at power-on. -/
theorem witness_MicroStepsMakeTheOperation : State.reset.agentIdle .dig ∧ State.reset.agentIdle .pwr ∧
    decode (0x30 :: []) = .ok .railEn [] ∧ agentOf .railEn = some .pwr ∧
    decode (0x10 :: []) = .ok .qryXfer [] ∧ agentOf .qryXfer = some .dig ∧
    decode (0x00 :: []) = .ok .sysReset [] ∧ agentOf .sysReset = none ∧
    Agent.pwr.enough ≤ 2010 ∧ Agent.dig.enough ≤ 16 :=
  ⟨rfl, rfl, rfl, rfl, rfl, rfl, rfl, rfl, by decide, by decide⟩
/-- The last micro-step of each side, which alone clears the busy bit; and one of `PWR` that uses no port. -/
theorem witness_MicroStepsMakeTheOperation_last : (∃ d : Dig, d.micro.2 ≠ none ∧ d.micro.1.busy ≠ d.busy) ∧
    (∃ p : Pwr, p.micro.2 ≠ none ∧ p.micro.1.busy ≠ p.busy) ∧
    ∃ p : Pwr, p.phase = .enRail ∧ p.micro.1.trace = p.trace :=
  ⟨⟨{ Dig.reset with busy := true, phase := .ret (some .ok) }, by decide, by decide⟩,
    ⟨{ Pwr.reset with busy := true, phase := .ret .ok }, by decide, by decide⟩,
    { Pwr.reset with busy := true, phase := .enRail }, rfl, rfl⟩
/-- A service to start: an edge pending, interrupts enabled. -/
theorem witness_MicroStepsMakeTheOperation_service : (withEdge ⟨false, .pen⟩ [.ok p1]).agentIdle .dig ∧
    (withEdge ⟨false, .pen⟩ [.ok p1]).edgeReady = true := ⟨rfl, rfl⟩
theorem witness_CapsImmutable : ∃ t, latchedReading.Inv ∧ latchedReading.dig.caps.valid = true ∧
    step latchedReading = .next t :=
  ⟨_, latchedReading_inv, rfl, rfl⟩
theorem witness_ToolKindStableInStroke : ∃ s t : State, s.dig.phase = .idle ∧ s.dig.tool.prox = true ∧
    step s = .next t :=
  ⟨withEdge ⟨true, .rubber⟩ [], _, rfl, rfl, rfl⟩
/-- The micro-step that writes the kind, in a stroke. -/
theorem witness_ToolKindStableInStroke_micro : ∃ d : Dig, d.phase = .penDecode p3 ∧ d.tool.prox = true :=
  ⟨{ Dig.reset with busy := true, phase := .penDecode p3, tool := ⟨true, .rubber⟩ }, rfl, rfl⟩
/-- An `IRQ.EN` in flight with an edge pending. -/
theorem witness_NoServiceWhileDisabled_micro : ∃ d : Dig, d.Inv ∧ d.irqEn = false ∧ d.irqPend = true ∧
    d.phase = .irqGate true :=
  ⟨{ Dig.reset with busy := true, phase := .irqGate true, irqPend := true },
    ⟨by decide, by decide, by decide, by decide, by unfold wholeBatches; decide⟩, rfl, rfl, rfl⟩
theorem witness_NoServiceWhileDisabled : ∃ s t : State, s.dig.phase = .idle ∧ s.dig.irqEn = false ∧
    s.dig.irqPend = true ∧ step s = .next t :=
  ⟨{ State.reset with dig := { Dig.reset with irqPend := true }, inbox := [.service] }, _, rfl, rfl, rfl, rfl⟩
theorem witness_SinkWholeBetweenOperations : latchedReading.dig.Inv ∧ latchedReading.dig.phase = .idle :=
  ⟨latchedReading_inv.dig, rfl⟩

theorem witness_QryXferLatches : ∃ s : State, s.dig.phase = .idle ∧ s.dig.caps.valid = false ∧
    s.dig.nextTransfer = .full q1 := ⟨withTransfers [.full q1], rfl, rfl, rfl⟩
/-- Both clauses, and both counts below two. -/
theorem witness_QryXferErrors : ∃ s s' s'' : State,
    (s.dig.phase = .idle ∧ s.dig.caps.valid = false ∧ s.dig.nextTransfer = .err (-5)) ∧
    (s'.dig.phase = .idle ∧ s'.dig.caps.valid = false ∧ s'.dig.nextTransfer = .short 0) ∧
    (s''.dig.phase = .idle ∧ s''.dig.caps.valid = false ∧ s''.dig.nextTransfer = .short 1) :=
  ⟨withTransfers [.err (-5)], withTransfers [.short 0], withTransfers [.short 1], ⟨rfl, rfl, rfl⟩,
    ⟨rfl, rfl, rfl⟩, ⟨rfl, rfl, rfl⟩⟩
theorem witness_QryXferRefusedWhenLatched : latched.dig.phase = .idle ∧ latched.dig.caps.valid = true :=
  ⟨rfl, rfl⟩

/-- `DIG` idle, at power-on and over a full latch. -/
theorem witness_QryDecFields : State.reset.dig.phase = .idle ∧ latched.dig.phase = .idle := ⟨rfl, rfl⟩
/-- `DIG` idle, for either previous proximity. -/
theorem witness_PenDecFields : State.reset.dig.phase = .idle ∧ (⟨true, .rubber⟩ : ToolState).prox = true ∧
    (⟨false, .pen⟩ : ToolState).prox = false := ⟨rfl, rfl, rfl⟩
/-- Two reports that differ in byte 0 and in status bits 6 and 7. -/
theorem witness_PenDecIgnores : ∃ raw raw' : ReportBuf, raw ≠ raw' ∧
    (∀ (o : Nat) (_ : o < 22), 4 ≤ o → o ≤ 14 → raw[o] = raw'[o]) ∧
    (∀ b : Nat, b ≤ 5 → raw[3].getLsbD b = raw'[3].getLsbD b) := by
  refine ⟨Vector.replicate 22 0, (Vector.replicate 22 0).set 3 0xC0, by decide, ?_, ?_⟩
  · intro o ho h4 _
    rw [Vector.getElem_set_ne _ _ (by omega)]
  · intro b hb
    have h : ∀ c : Fin 6, (0 : Byte).getLsbD c.val = (0xC0 : Byte).getLsbD c.val := by decide
    simpa using h ⟨b, by omega⟩
theorem witness_PenIrqEmitsBatch : ∃ s : State, s.dig.phase = .idle ∧ s.dig.irqPend = true ∧ s.dig.irqEn = true ∧
    s.dig.nextRecv = .ok p1 := ⟨withEdge ⟨false, .pen⟩ [.ok p1], rfl, rfl, rfl, rfl⟩
theorem witness_PenIrqReadErrorSwallowed : ∃ s : State, s.dig.phase = .idle ∧ s.dig.irqPend = true ∧
    s.dig.irqEn = true ∧ s.dig.nextRecv = .err 5 := ⟨withEdge ⟨true, .pen⟩ [.err 5], rfl, rfl, rfl, rfl⟩
/-- No edge; and an edge with interrupts disabled. -/
theorem witness_PenIrqNeedsAnEdge : ∃ s s' : State, (s.dig.phase = .idle ∧ s.dig.irqPend = false) ∧
    (s'.dig.phase = .idle ∧ s'.dig.irqPend = true ∧ s'.dig.irqEn = false) :=
  ⟨State.reset, { State.reset with dig := { Dig.reset with irqPend := true } }, ⟨rfl, rfl⟩, rfl, rfl, rfl⟩
theorem witness_IrqEnEffect : (moves []).dig.phase = .idle := rfl
theorem witness_IrqDisEffect : (withEdge ⟨true, .pen⟩ []).dig.phase = .idle := rfl
/-- The four clauses; the first and the second meet in a state with both bits set. -/
theorem witness_EdgeArrival : ∃ s1 s2 s3 s4 : State,
    (s1.inbox = .edge .lost :: [] ∧ s1.dig.irqEn = true) ∧
    (s2.inbox = .edge .held :: [] ∧ s2.dig.irqPend = true ∧ s2.dig.irqEn = true) ∧
    (s3.inbox = .edge .held :: [] ∧ s3.dig.irqEn = false ∧ s3.dig.irqPend = false) ∧
    (s4.inbox = .edge .lost :: [] ∧ s4.dig.irqEn = false ∧ s4.dig.irqPend = false) :=
  ⟨{ moves [.edge .lost] with dig := { Dig.reset with irqEn := true } },
    { moves [.edge .held] with dig := { Dig.reset with irqEn := true, irqPend := true } },
    moves [.edge .held], moves [.edge .lost], ⟨rfl, rfl⟩, ⟨rfl, rfl, rfl⟩, ⟨rfl, rfl, rfl⟩, rfl, rfl, rfl⟩

/-- At `k = 0` (T1) and at `k = 499` (T3). -/
theorem witness_RailEnSucceeds : ∀ k ∈ [0, 499], ∃ s : State, s.pwr.phase = .idle ∧ s.pwr.nextRailWrite = .ok ∧
    k < 500 ∧ (∀ j, j < k → s.pwr.lineAt j = .level false) ∧ s.pwr.lineAt k = .level true :=
  fun k hk => ⟨withRail .disabled [.ok] (zerosThen k [.level true]), rfl, rfl, by revert k; decide,
    fun j hj => lineAt_zeros _ _ _ _ j hj, lineAt_after _ _ _ _⟩
/-- T11: the forced write fails and the chip keeps the bit. -/
theorem witness_RailEnTimesOut : ∃ s : State, s.pwr.phase = .idle ∧ s.pwr.nextRailWrite = .ok ∧
    (∀ j, j < 500 → s.pwr.lineAt j = .level false) ∧ s.pwr.secondRailWrite = .err 2 false :=
  ⟨withRail .disabled [.ok, .err 2 false] (zerosThen 500 []), rfl, rfl, fun j hj => lineAt_zeros _ _ _ _ j hj, rfl⟩
/-- At `k = 0` and at `k = 499` (T10). -/
theorem witness_RailEnReadError : ∀ k ∈ [0, 499], ∃ s : State, s.pwr.phase = .idle ∧ s.pwr.nextRailWrite = .ok ∧
    k < 500 ∧ (∀ j, j < k → s.pwr.lineAt j = .level false) ∧ s.pwr.lineAt k = .err 7 :=
  fun k hk => ⟨withRail .disabled [.ok] (zerosThen k [.err 7]), rfl, rfl, by revert k; decide,
    fun j hj => lineAt_zeros _ _ _ _ j hj, lineAt_after _ _ _ _⟩
/-- The bit latched, and not. -/
theorem witness_RailEnWriteError : ∀ took : Bool, (withRail .disabled [.err 4 took] []).pwr.phase = .idle ∧
    (withRail .disabled [.err 4 took] []).pwr.nextRailWrite = .err 4 took := by decide
theorem witness_PollingFrame : ∃ s t u : State, s.pwr.phase = .idle ∧ exec .railEn s = .next t ∧
    exec .railStat s = .next u := ⟨withRail .enabled [.ok] [.level true], _, _, rfl, rfl, rfl⟩
theorem witness_RailDisSucceeds : (withRail .enabled [.ok] []).pwr.phase = .idle ∧
    (withRail .enabled [.ok] []).pwr.nextRailWrite = .ok := ⟨rfl, rfl⟩
theorem witness_RailDisWriteError : ∀ took : Bool, (withRail .enabled [.err 4 took] []).pwr.phase = .idle ∧
    (withRail .enabled [.err 4 took] []).pwr.nextRailWrite = .err 4 took := by decide
theorem witness_SleepWithinBounds : Config.pollSleepMin ≤ Config.pollSleepMax ∧
    Config.rampSleepMin ≤ Config.rampSleepMax ∧ (30000 : Nat) ≤ 30000 ∧ (30000 : Nat) ≤ 35000 ∧
    (35000 : Nat) ≤ 35000 := by decide
theorem witness_RailIsenEffect : (withQuery true [.ok]).pwr.phase = .idle := rfl
/-- The clauses at their ends: 1 at the first and at the last read, an error at either, and 500 reads of 0. -/
theorem witness_RailStatAnswers : (∀ k ∈ [0, 499], ∀ a ∈ [LineAnswer.level true, .err 3], ∃ s : State,
      s.pwr.phase = .idle ∧ (∀ j, j < k → s.pwr.lineAt j = .level false) ∧ k < 500 ∧ s.pwr.lineAt k = a) ∧
    (∃ s : State, s.pwr.phase = .idle ∧ ∀ j, j < 500 → s.pwr.lineAt j = .level false) :=
  ⟨fun k hk a _ => ⟨withRail .enabled [] (zerosThen k [a]), rfl, fun j hj => lineAt_zeros _ _ _ _ j hj,
      by revert k; decide, lineAt_after _ _ _ _⟩,
    withRail .enabled [] (zerosThen 500 []), rfl, fun j hj => lineAt_zeros _ _ _ _ j hj⟩
/-- Each of the six updates, and each event, from a power side that meets the invariant. -/
theorem witness_RailTransitions :
    (∀ x ∈ ([(.enWrite, .disabled, 0, false), (.enRail, .enabled, 0, false), (.enPoll 0, .enabling, 0, false),
        (.enCount 0 true, .enabling, 0, false), (.enKeep 0 true, .enabling, 1, false),
        (.enGood 0, .enabling, 1, true), (.enAbort (-1), .enabling, 0, false), (.enFail 500000, .enabling, 500, false),
        (.forcedSleep 500000, .failed, 500, false), (.forcedRail 500000, .failed, 500, false),
        (.disWrite, .enabled, 0, false), (.disSleep .ok, .enabled, 0, false), (.disRail, .disabled, 0, false)] :
        List (PwrPhase × RailState × BitVec 9 × Bool)),
      ({ Pwr.reset with busy := true, phase := x.1, rail := x.2.1, iter := x.2.2.1, pgLast := x.2.2.2 } : Pwr).Inv) ∧
    ({ Pwr.reset with busy := true, phase := .enSleep 499000, rail := .enabling, iter := 500 } : Pwr).Inv := by
  have key : ∀ p : Pwr, (p.busy = true ↔ p.phase ≠ .idle) → p.iter.toNat ≤ Config.pollMax →
      railFits p.phase p.rail → pollFits p.phase p.iter.toNat p.pgLast → p.Inv := fun _ a b c d => ⟨a, b, c, d⟩
  refine ⟨?_, key _ (by decide) (by decide) rfl (by unfold pollFits sleptFor; decide)⟩
  simp only [List.forall_mem_cons, List.not_mem_nil, false_implies, implies_true, and_true]
  refine ⟨?_, ?_, ?_, ?_, ?_, ?_, ?_, ?_, ?_, ?_, ?_, ?_, ?_⟩ <;>
    exact key _ (by decide) (by decide) (by simp [railFits]) (by simp [pollFits, sleptFor, pollExhausted, Config.pollMax, Config.pollSleepMin, Config.pollSleepMax])
theorem witness_RailEnBounds : ∃ s t : State, s.pwr.phase = .idle ∧ exec .railEn s = .next t :=
  ⟨withRail .disabled [.ok] [.level true], _, rfl, rfl⟩

theorem witness_VcomDecValue : State.reset.pwr.phase = .idle := rfl
theorem witness_VcomDecuvValue : State.reset.pwr.phase = .idle := rfl
/-- `PWR` idle, and the ends of both ranges. -/
theorem witness_VcomEncValue : State.reset.pwr.phase = .idle ∧ ((0 : Int) ≤ 0 ∧ (0 : Int) ≤ 5000) ∧ ((0 : Int) ≤ 5000 ∧ (5000 : Int) ≤ 5000) ∧
    (-1 : Int) < 0 ∧ (5000 : Int) < 5001 := by decide
/-- The ends of each clause. -/
theorem witness_VcomRoundTrips : ((0 : Int) ≤ 5000 ∧ (5000 : Int) ≤ 5000 ∧ (5000 : Int) % 10 = 0) ∧
    ((-1 : Int) < 0 ∧ (5000 : Int) < 5001) ∧ vcomDecode 0xF4 0x01 ≤ 5000 ∧ vcomDecode 0x7D 0xFE ≤ 5000 ∧
    5000 < vcomDecode 0xF5 0x01 ∧ 5000 < vcomDecode 0xFF 0xFF := by decide
/-- The three clauses. -/
theorem witness_VcomRdmvEffect : ∃ s1 s2 s3 : State,
    (s1.pwr.phase = .idle ∧ s1.pwr.nextVcomRead = .ok ∧ s1.pwr.secondVcomRead = .ok) ∧
    (s2.pwr.phase = .idle ∧ s2.pwr.nextVcomRead = .err 2) ∧
    (s3.pwr.phase = .idle ∧ s3.pwr.nextVcomRead = .ok ∧ s3.pwr.secondVcomRead = .err 2) :=
  ⟨withVcom 0xFF 0xFF [.ok, .ok] [], withVcom 0 1 [.err 2] [], withVcom 0 1 [.ok, .err 2] [], ⟨rfl, rfl, rfl⟩,
    ⟨rfl, rfl⟩, rfl, rfl, rfl⟩
/-- The same three. -/
theorem witness_VcomRduvEffect : ∃ s1 s2 s3 : State,
    (s1.pwr.phase = .idle ∧ s1.pwr.nextVcomRead = .ok ∧ s1.pwr.secondVcomRead = .ok) ∧
    (s2.pwr.phase = .idle ∧ s2.pwr.nextVcomRead = .err 2) ∧
    (s3.pwr.phase = .idle ∧ s3.pwr.nextVcomRead = .ok ∧ s3.pwr.secondVcomRead = .err 2) :=
  witness_VcomRdmvEffect
/-- Both ends of the range. -/
theorem witness_VcomWrmvWrites : ∀ v ∈ [(-5000 : Int), 0], -5000 ≤ v ∧ v ≤ 0 ∧
    (withVcom 0 1 [] [.ok, .ok]).pwr.phase = .idle ∧ (withVcom 0 1 [] [.ok, .ok]).pwr.nextVcomWrite = .ok ∧
    (withVcom 0 1 [] [.ok, .ok]).pwr.secondVcomWrite = .ok := by decide
/-- The three clauses, the first just outside the range on both sides. -/
theorem witness_VcomWrmvErrors : (-5001 : Int) < -5000 ∧ (0 : Int) < 1 ∧
    (∀ took : Bool, (withVcom 0 1 [] [.err 6 took]).pwr.phase = .idle ∧
      (withVcom 0 1 [] [.err 6 took]).pwr.nextVcomWrite = .err 6 took) ∧
    (∀ took : Bool, (withVcom 0 1 [] [.ok, .err 6 took]).pwr.phase = .idle ∧
      (withVcom 0 1 [] [.ok, .err 6 took]).pwr.nextVcomWrite = .ok ∧
      (withVcom 0 1 [] [.ok, .err 6 took]).pwr.secondVcomWrite = .err 6 took) := by decide
theorem witness_VcomFrame : ∃ s t u w : State, s.pwr.phase = .idle ∧ exec .vcomRdmv s = .next t ∧
    exec .vcomRduv s = .next u ∧ exec (.vcomWrmv (-10)) s = .next w :=
  ⟨withVcom 0 1 [.ok, .ok] [.ok, .ok], _, _, _, rfl, rfl, rfl, rfl⟩
theorem witness_VcomReadAfterWrite : ∀ v ∈ [(-5000 : Int), -2565, 0], -5000 ≤ v ∧ v ≤ 0 ∧
    (withVcom 0 0 [.ok, .ok] [.ok, .ok]).pwr.phase = .idle ∧
    (withVcom 0 0 [.ok, .ok] [.ok, .ok]).pwr.nextVcomWrite = .ok ∧
    (withVcom 0 0 [.ok, .ok] [.ok, .ok]).pwr.secondVcomWrite = .ok ∧
    (withVcom 0 0 [.ok, .ok] [.ok, .ok]).pwr.nextVcomRead = .ok ∧
    (withVcom 0 0 [.ok, .ok] [.ok, .ok]).pwr.secondVcomRead = .ok := by decide

/-- Both clauses; the values on both sides of the table's end. -/
theorem witness_FltStateEffect : (∀ a ∈ [ByteAnswer.ok 0x1F, .ok 0x20, .err 9],
    (withFault [a]).pwr.phase = .idle ∧ (withFault [a]).pwr.nextFaultRead = a) := by decide
/-- Both clauses. -/
theorem witness_FltPgEffect : (∀ a ∈ [ByteAnswer.ok 0x05, .err 9],
    (withFault [a]).pwr.phase = .idle ∧ (withFault [a]).pwr.nextFaultRead = a) := by decide
/-- The two moves. -/
theorem witness_EnvironmentMoves : (moves [.line true]).inbox = .line true :: [] ∧
    (moves [.faultReg 0x45]).inbox = .faultReg 0x45 :: [] := ⟨rfl, rfl⟩

end Sys2Proof.Tests
end

section
/-! SUPPORT. The proofs of the statements of spec/00_scope.md: what one micro-step can do (R9), and the micro-steps of
an operation, made one by one, against the operation run whole (spec/20_memory.md R64). -/

namespace Sys2Proof.Machine

/-! ### How much two sides differ -/

@[simp] theorem differ_self {α : Type} [DecidableEq α] (a : α) : differ a a = 0 := if_pos rfl

theorem differ_le_one {α : Type} [DecidableEq α] (a b : α) : differ a b ≤ 1 := by
  unfold differ; split <;> omega

/-! ### One micro-step of the digitizer side -/

/-- One interaction of `DIG` with the environment or one internal update of it, or none (spec/00_scope.md R9). -/
inductive Dig.Act (d : Dig) : Dig → Prop
  | none : Act d d
  | resetPulse : Act d d.resetPulse
  | busTransfer (msgs : List BusMsg) : Act d (d.busTransfer msgs).2
  | busRecv : Act d d.busRecv.2
  | emit (e : SinkEvent) : Act d (d.emit e)
  | latch (c : Caps) : Act d { d with caps := c }
  | tool (ts : ToolState) : Act d { d with tool := ts }
  | openGate : Act d d.openGate
  | closeGate : Act d d.closeGate

/-- The last micro-step of an operation of `DIG` returns its result; every other one is an act and hands on to the next
phase. -/
theorem Dig.micro_cases (d : Dig) :
    (∃ r, d.phase = .ret r ∧ d.micro = d.leave r) ∨ ∃ e ph, d.Act e ∧ d.micro = (e.goto ph, none) := by
  cases hp : d.phase with
  | ret r => exact .inl ⟨r, rfl, by simp only [Dig.micro, hp]⟩
  | idle =>
    have e : d.micro = (d, none) := by simp only [Dig.micro, hp]
    exact .inr ⟨d, d.phase, .none, e⟩
  | qryTransfer =>
    simp only [Dig.micro, hp, qryTransfer_eq]
    cases d.nextTransfer <;> exact .inr ⟨_, _, .busTransfer qryMessages, rfl⟩
  | penRecv =>
    simp only [Dig.micro, hp, penRecv_eq]
    cases d.nextRecv <;> exact .inr ⟨_, _, .busRecv, rfl⟩
  | irqGate on =>
    simp only [Dig.micro, hp, irqGate]
    cases on
    · exact .inr ⟨_, _, .closeGate, rfl⟩
    · exact .inr ⟨_, _, .openGate, rfl⟩
  | qryPulse => exact .inr ⟨_, _, .resetPulse, by simp only [Dig.micro, hp]; rfl⟩
  | qryLatch rx => exact .inr ⟨_, _, .latch _, by simp only [Dig.micro, hp]; rfl⟩
  | penDecode raw => exact .inr ⟨_, _, .tool _, by simp only [Dig.micro, hp]; rfl⟩
  | penEmit e rest => exact .inr ⟨_, _, .emit e, by simp only [Dig.micro, hp]; rfl⟩

/-- An act is at most one update or interaction, whatever phase comes next. -/
theorem Dig.Act.acts_le_one {d e : Dig} (h : d.Act e) (ph : DigPhase) : d.acts (e.goto ph) ≤ 1 := by
  cases h <;> simp [Dig.acts, differ_le_one]

/-- An act leaves the busy bit alone. -/
theorem Dig.Act.busy {d e : Dig} (h : d.Act e) : e.busy = d.busy := by cases h <;> rfl

/-- Clearing the busy bit is the one update of the last micro-step. -/
theorem Dig.leave_acts (r : Option Result) (d : Dig) : d.acts (d.leave r).1 ≤ 1 := by
  simp [Dig.acts, differ_le_one]

/-- One micro-step of `DIG` is at most one update or interaction (spec/00_scope.md R9). -/
theorem Dig.micro_acts (d : Dig) : d.acts d.micro.1 ≤ 1 := by
  obtain ⟨r, -, e⟩ | ⟨e, ph, hact, he⟩ := d.micro_cases
  · rw [e]; exact d.leave_acts r
  · rw [he]; exact hact.acts_le_one ph

/-- Only the last micro-step of `DIG` returns a result or changes the busy bit (spec/10_state.md R33). -/
theorem Dig.micro_last (d : Dig) (h : d.micro.2 ≠ none ∨ d.micro.1.busy ≠ d.busy) :
    ∃ r, d.phase = .ret r ∧ d.micro = d.leave r := by
  refine d.micro_cases.resolve_right ?_
  rintro ⟨e, ph, hact, he⟩
  simp [he, hact.busy] at h

/-! ### One micro-step of the power side -/

/-- One interaction of `PWR` with the environment or one internal update of it, or none (spec/00_scope.md R9); the draw
of `elapsed` is one (spec/42_power_rail_sequencer.md R167). -/
inductive Pwr.Act (p : Pwr) : Pwr → Prop
  | none : Act p p
  | setRail (r : RailState) : Act p (p.setRail r)
  | setIter (i : BitVec 9) : Act p (p.setIter i)
  | setPgLast (g : Bool) : Act p (p.setPgLast g)
  | elapsed (t : Nat) : Act p (p.elapsed t).2
  | railWrite (on : Bool) : Act p (p.railWrite on).2
  | railQuery : Act p p.railQuery.2
  | gpioRead : Act p p.gpioRead.2
  | sleep (lo hi : Nat) : Act p (p.sleep lo hi).2
  | readVcomL : Act p p.readVcomL.2
  | readVcomH : Act p p.readVcomH.2
  | readFault : Act p p.readFault.2
  | writeVcomL (v : Byte) : Act p (p.writeVcomL v).2
  | writeVcomH (v : Byte) : Act p (p.writeVcomH v).2

/-- The last micro-step of an operation of `PWR` returns its result; every other one is an act and hands on to the next
phase. -/
theorem Pwr.micro_cases (p : Pwr) :
    (∃ r, p.phase = .ret r ∧ p.micro = p.leave r) ∨ ∃ q ph, p.Act q ∧ p.micro = (q.goto ph, none) := by
  cases hp : p.phase with
  | ret r => exact .inl ⟨r, rfl, by simp only [Pwr.micro, hp]⟩
  | _ => ?_
  all_goals right
  case idle =>
    have e : p.micro = (p, none) := by simp only [Pwr.micro, hp]
    exact ⟨p, p.phase, .none, e⟩
  all_goals simp only [Pwr.micro, hp]
  case enRail | enGood | enAbort | enFail | forcedRail | disRail => exact ⟨_, _, .setRail _, rfl⟩
  case enIter | enCount | statInit | statCount => exact ⟨_, _, .setIter _, rfl⟩
  case enKeep | statKeep => exact ⟨_, _, .setPgLast _, rfl⟩
  case enReport t | enTimeout t => exact ⟨_, _, .elapsed t, rfl⟩
  case enSleep | statSleep | forcedSleep => exact ⟨_, _, .sleep _ _, rfl⟩
  case disSleep w => cases w <;> exact ⟨_, _, .sleep _ _, rfl⟩
  case forcedWrite | disWrite => exact ⟨_, _, .railWrite false, rfl⟩
  case enWrite => rw [railEnWrite_eq]; cases p.nextRailWrite <;> exact ⟨_, _, .railWrite true, rfl⟩
  case isenQuery => rw [railIsenQuery_eq]; cases p.nextRailQuery <;> exact ⟨_, _, .railQuery, rfl⟩
  case enPoll => rw [railEnPoll_eq]; cases p.lineAt 0 <;> exact ⟨_, _, .gpioRead, rfl⟩
  case statPoll => rw [railStatPoll_eq]; cases p.lineAt 0 <;> exact ⟨_, _, .gpioRead, rfl⟩
  case rdmvLow => rw [vcomRdmvLow_eq]; cases p.nextVcomRead <;> exact ⟨_, _, .readVcomL, rfl⟩
  case rdmvHigh => rw [vcomRdmvHigh_eq]; cases p.nextVcomRead <;> exact ⟨_, _, .readVcomH, rfl⟩
  case rduvLow => rw [vcomRduvLow_eq]; cases p.nextVcomRead <;> exact ⟨_, _, .readVcomL, rfl⟩
  case rduvHigh => rw [vcomRduvHigh_eq]; cases p.nextVcomRead <;> exact ⟨_, _, .readVcomH, rfl⟩
  case wrmvLow => rw [vcomWrmvLow_eq]; cases p.nextVcomWrite <;> exact ⟨_, _, .writeVcomL _, rfl⟩
  case wrmvHigh => rw [vcomWrmvHigh_eq]; cases p.nextVcomWrite <;> exact ⟨_, _, .writeVcomH _, rfl⟩
  case fltStateRead => rw [fltStateRead_eq]; cases p.nextFaultRead <;> exact ⟨_, _, .readFault, rfl⟩
  case fltPgRead => rw [fltPgRead_eq]; cases p.nextFaultRead <;> exact ⟨_, _, .readFault, rfl⟩

/-- An act is at most one update or interaction, whatever phase comes next. -/
theorem Pwr.Act.acts_le_one {p q : Pwr} (h : p.Act q) (ph : PwrPhase) : p.acts (q.goto ph) ≤ 1 := by
  cases h <;> simp [Pwr.acts, differ_le_one]

/-- An act leaves the busy bit alone. -/
theorem Pwr.Act.busy {p q : Pwr} (h : p.Act q) : q.busy = p.busy := by cases h <;> rfl

/-- An act that uses no port leaves what belongs to the environment alone. -/
theorem Pwr.Act.chip_pgood {p q : Pwr} (h : p.Act q) (ht : q.trace = p.trace) :
    q.chip = p.chip ∧ q.pgood = p.pgood := by
  cases h <;> simp at ht ⊢

/-- Clearing the busy bit is the one update of the last micro-step. -/
theorem Pwr.leave_acts (r : Result) (p : Pwr) : p.acts (p.leave r).1 ≤ 1 := by
  simp [Pwr.acts, differ_le_one]

/-- One micro-step of `PWR` is at most one update or interaction (spec/00_scope.md R9). -/
theorem Pwr.micro_acts (p : Pwr) : p.acts p.micro.1 ≤ 1 := by
  obtain ⟨r, -, e⟩ | ⟨q, ph, hact, he⟩ := p.micro_cases
  · rw [e]; exact p.leave_acts r
  · rw [he]; exact hact.acts_le_one ph

/-- A micro-step of `PWR` that uses no port leaves the chip and the line alone. -/
theorem Pwr.micro_chip_pgood (p : Pwr) (h : p.micro.1.trace = p.trace) :
    p.micro.1.chip = p.chip ∧ p.micro.1.pgood = p.pgood := by
  obtain ⟨r, -, e⟩ | ⟨q, ph, hact, he⟩ := p.micro_cases
  · rw [e]; exact ⟨rfl, rfl⟩
  · rw [he] at h ⊢; exact hact.chip_pgood h

/-- Only the last micro-step of `PWR` returns a result or changes the busy bit
(spec/42_power_rail_sequencer.md R160). -/
theorem Pwr.micro_last (p : Pwr) (h : p.micro.2 ≠ none ∨ p.micro.1.busy ≠ p.busy) :
    ∃ r, p.phase = .ret r ∧ p.micro = p.leave r := by
  refine p.micro_cases.resolve_right ?_
  rintro ⟨q, ph, hact, he⟩
  simp [he, hact.busy] at h

/-! ### Micro-steps of one agent, to the end of its operation -/

/-- Enough micro-steps of `DIG` after a start make the whole operation. -/
theorem State.launchDig_schedule (s : State) {ph : DigPhase} {n : Nat} (hn : ph.rank ≤ n) :
    (s.launchDig ph).schedule (List.replicate n .dig) = s.runDig ph := by
  rw [State.schedule_dig, Dig.run_enough n ph.bound _ hn ph.rank_le_bound]
  rfl

/-- Enough micro-steps of `PWR` after a start make the whole operation. -/
theorem State.launchPwr_schedule (s : State) (ph : PwrPhase) {n : Nat} (hn : Pwr.bound ≤ n) :
    (s.launchPwr ph).schedule (List.replicate n .pwr) = s.runPwr ph := by
  have hb := (s.launchPwr ph).pwr.rank_le_bound
  rw [State.schedule_pwr, Pwr.run_enough n Pwr.bound _ (hb.trans hn) hb]
  rfl

/-- An idle agent has no micro-step to make. -/
theorem State.schedule_idle {s : State} {a : Agent} (h : s.agentIdle a) (n : Nat) :
    s.schedule (List.replicate n a) = s := by
  have advance_idle : s.advance a = s := by
    cases a with
    | dig => simp [State.advance, Dig.micro, show s.dig.phase = .idle from h, State.putDig]
    | pwr => simp [State.advance, Pwr.micro, show s.pwr.phase = .idle from h, State.putPwr]
  induction n with
  | zero => rfl
  | succ n ih => rw [List.replicate_succ, State.schedule, advance_idle, ih]

/-- Wherever `QRY.XFER` starts, 16 micro-steps are enough. -/
theorem qryFirst_rank (d : Dig) : (qryFirst d).rank ≤ 16 := by
  unfold qryFirst
  split
  · simp [DigPhase.rank]
  · split <;> simp [DigPhase.rank]

/-! ### Starting an operation and going on with it -/

/-- A list of `advance` moves makes its micro-steps in order. -/
theorem runSteps_advances (order : List Agent) (s : State) (more : List Move) :
    runSteps order.length { s with inbox := order.map .advance ++ more } =
      .next ({ s with inbox := more }.schedule order) := by
  induction order generalizing s with
  | nil => rfl
  | cons a rest ih =>
    have first : step { s with inbox := .advance a :: (rest.map .advance ++ more) } =
        .next { s.advance a with inbox := rest.map .advance ++ more } := by
      rw [step_advance, State.advance_inbox]
    rw [State.schedule, State.advance_inbox]
    exact (runSteps_of_next _ first).trans (ih (s.advance a))

/-- Whatever moves are still to come, `start` starts what `n` micro-steps of the agent bring to where `whole` brings
it. -/
def StartsWhole (a : Agent) (n : Nat) (start whole : State → Host.Outcome State Fault Refusal) (s : State) : Prop :=
  ∃ t : State, ∀ l : List Move, start { s with inbox := l } = .next { t with inbox := l } ∧
    whole { s with inbox := l } = .next ({ t with inbox := l }.schedule (List.replicate n a))

/-- A move that starts an operation, and enough `advance` moves after it, give what the move for the whole operation
gives. -/
theorem StartsWhole.runSteps_eq {a : Agent} {n : Nat} {m m' : Move} {s : State}
    (h : StartsWhole a n (perform m) (perform m') s) (more : List Move) :
    runSteps (n + 1) { s with inbox := m :: (List.replicate n (.advance a) ++ more) } =
      step { s with inbox := m' :: more } := by
  obtain ⟨t, ht⟩ := h
  have advances := runSteps_advances (List.replicate n a) t more
  rw [List.length_replicate, List.map_replicate] at advances
  calc runSteps (n + 1) { s with inbox := m :: (List.replicate n (.advance a) ++ more) }
    _ = runSteps n { t with inbox := List.replicate n (.advance a) ++ more } := runSteps_of_next n (ht _).1
    _ = .next ({ t with inbox := more }.schedule (List.replicate n a)) := advances
    _ = step { s with inbox := m' :: more } := (ht more).2.symm

/-- A `DIG` operation is started and then brought to its end by enough micro-steps. -/
theorem launchDig_startsWhole (s : State) {ph : DigPhase} {n : Nat} (hn : ph.rank ≤ n) :
    StartsWhole .dig n (.next <| ·.launchDig ph) (.next <| ·.runDig ph) s :=
  ⟨s.launchDig ph, fun l => ⟨rfl, congrArg _ (State.launchDig_schedule { s with inbox := l } hn).symm⟩⟩

/-- A `PWR` operation is started and then brought to its end by enough micro-steps. -/
theorem launchPwr_startsWhole (s : State) (ph : PwrPhase) {n : Nat} (hn : Pwr.bound ≤ n) :
    StartsWhole .pwr n (.next <| ·.launchPwr ph) (.next <| ·.runPwr ph) s :=
  ⟨s.launchPwr ph, fun l => ⟨rfl, congrArg _ (State.launchPwr_schedule { s with inbox := l } ph hn).symm⟩⟩

/-- What is done in one step on an idle agent leaves no micro-step to make. -/
theorem startsWhole_of_idle {a : Agent} {f : State → State} {s : State} (h : (f s).agentIdle a)
    (hf : ∀ l, f { s with inbox := l } = { f s with inbox := l }) (n : Nat) :
    StartsWhole a n (.next <| f ·) (.next <| f ·) s := by
  refine ⟨f s, fun l => ⟨congrArg _ (hf l), ?_⟩⟩
  have idle : State.agentIdle a { f s with inbox := l } := by cases a <;> exact h
  exact congrArg _ ((hf l).trans (State.schedule_idle idle n).symm)

/-- Every operation of an agent that the host may issue is started and then brought to its end by the agent's
micro-steps. -/
theorem launch_startsWhole {i : Instr} {a : Agent} {n : Nat} (hi : i.hostIssued = true) (ha : agentOf i = some a)
    (hn : a.enough ≤ n) (s : State) : StartsWhole a n (launch i) (exec i) s := by
  cases i with
  | penIrq => cases hi
  | sysReset | qryDec | penDec | vcomDec | vcomDecuv | vcomEnc => cases ha
  | qryXfer =>
    cases ha
    exact launchDig_startsWhole s.settleDig ((qryFirst_rank s.settleDig.dig).trans hn)
  | irqEn | irqDis =>
    cases ha
    exact launchDig_startsWhole s (Nat.le_trans (by decide) hn)
  | _ =>
    cases ha
    exact launchPwr_startsWhole s _ hn

/-- A command frame that is launched: its operation is started, or its illegal code answered at once (R98). -/
theorem issue_startsWhole {code : Byte} {operands rest : List Byte} {i : Instr} {a : Agent} {n : Nat} {s : State}
    (hd : decode (code :: operands) = .ok i rest) (ha : agentOf i = some a) (hs : s.agentIdle a)
    (hn : a.enough ≤ n) :
    StartsWhole a n (perform (.launch code operands)) (perform (.command code operands)) s := by
  have issued : ∀ go : Instr → State → Host.Outcome State Fault Refusal,
      issue go code operands = fun s => if i.hostIssued then go i s else .next s.illegal := by
    intro go; funext s; simp only [issue, hd]
  change StartsWhole a n (issue launch code operands) (issue exec code operands) s
  rw [issued, issued]
  cases hi : i.hostIssued with
  | true => exact launch_startsWhole hi ha hn s
  | false => exact startsWhole_of_idle (f := State.illegal) (by cases a <;> exact hs) (fun _ => rfl) n

/-- On an idle `DIG` the service of a pending edge starts at once (spec/41_pen_report.md R145). -/
theorem launchServe_idle {s : State} (h : s.dig.phase = .idle) :
    launchServe s = .next (if s.edgeReady then s.launchPen else s) := by
  rw [launchServe, State.settleDig_idle h]

/-- On an idle `DIG` a pending edge is served whole at once (spec/41_pen_report.md R145). -/
theorem serve_idle {s : State} (h : s.dig.phase = .idle) :
    serve s = .next (if s.edgeReady then s.launchPen.settleDig else s) := by
  rw [serve, State.settleDig_idle h]
  cases hr : s.edgeReady with
  | true => simp [exec, execPenIrq, State.settleDig_idle h, hr]
  | false => rfl

/-- The service of an edge is started and then brought to its end by the micro-steps of `DIG`; with no edge to serve
there is none to make. -/
theorem launchServe_startsWhole {s : State} (hs : s.agentIdle .dig) {n : Nat} (hn : Agent.dig.enough ≤ n) :
    StartsWhole .dig n (perform .launchService) (perform .service) s := by
  refine ⟨if s.edgeReady then s.launchPen else s, fun l => ?_⟩
  have idle : State.agentIdle .dig { s with inbox := l } := hs
  have ready : State.edgeReady { s with inbox := l } = s.edgeReady := rfl
  rw [perform, perform, launchServe_idle idle, serve_idle idle, ready]
  cases s.edgeReady with
  | true =>
    exact ⟨rfl, congrArg _ (State.launchDig_schedule { s with dig := { s.dig with irqPend := false }, inbox := l }
      (ph := .penRecv) hn).symm⟩
  | false => exact ⟨rfl, congrArg _ (State.schedule_idle idle n).symm⟩

/-- An operation with no agent is one indivisible step: starting it runs it. -/
theorem launch_of_no_agent {i : Instr} (h : agentOf i = none) (s : State) : launch i s = exec i s := by
  cases i with
  | sysReset | qryDec | penDec | vcomDec | vcomDecuv | vcomEnc => rfl
  | _ => cases h

/-- Settles O17, clause by clause: what a micro-step can do (`Dig.micro_cases`, `Pwr.micro_cases`), and a start that
enough micro-steps bring to the end of the operation (`StartsWhole`). -/
theorem microStepsMakeTheOperation : Obligations.MicroStepsMakeTheOperation := by
  refine ⟨fun d => ⟨d.micro_acts, d.micro_last⟩, fun p => ⟨p.micro_acts, p.micro_chip_pgood, p.micro_last⟩, ?_,
    fun s more n hs hn => (launchServe_startsWhole hs hn).runSteps_eq more,
    fun s order more => runSteps_advances order s more,
    fun s ph _ => s.launchDig_schedule ph.rank_le_bound, fun s ph _ => s.launchPwr_schedule ph (Nat.le_refl _)⟩
  intro s code operands more i rest hd
  refine ⟨fun ha => ?_, fun a n ha hs hn => (issue_startsWhole hd ha hs hn).runSteps_eq more⟩
  change issue launch code operands _ = issue exec code operands _
  simp only [issue, hd, launch_of_no_agent ha]

end Sys2Proof.Machine
end

section
/-! SUPPORT. The proofs of the statements of spec/10_state.md: what one step of the machine can do to each half, the
invariant of each half under it, and the two halves apart from each other (R21). -/

namespace Sys2Proof.Machine

/-! ### The sink as a list of whole batches (spec/10_state.md R28, spec/41_pen_report.md R140) -/

/-- Events are read in order: the second part against what the first leaves expected. -/
theorem sinkScan_append (l l' : List SinkEvent) (expected : List SinkField) :
    sinkScan (l ++ l') expected = (sinkScan l expected).bind (sinkScan l') := by
  induction l generalizing expected with
  | nil => rfl
  | cons e l ih =>
    cases e with
    | field n v =>
      cases expected with
      | nil => rfl
      | cons m ms => by_cases h : n = m <;> simp [sinkScan, h, ih]
    | commit =>
      cases expected with
      | nil => exact ih _
      | cons m ms => rfl

/-- The events of one sample are one batch. -/
theorem sinkScan_sampleEvents (smp : PenSample) : sinkScan (sampleEvents smp) batchFields = some batchFields := rfl

/-- A sample's events after whole batches make whole batches. -/
theorem wholeBatches.append_sample {sink : List SinkEvent} (h : wholeBatches sink) (smp : PenSample) :
    wholeBatches (sink ++ sampleEvents smp) := by
  rw [wholeBatches, sinkScan_append, show sinkScan sink batchFields = some batchFields from h, Option.bind_some,
    sinkScan_sampleEvents]

/-- Never more fields are expected than a batch has. -/
theorem sinkScan_length {l : List SinkEvent} {expected left : List SinkField} (h : sinkScan l expected = some left)
    (hle : expected.length ≤ batchFields.length) : left.length ≤ batchFields.length := by
  induction l generalizing expected with
  | nil => cases h; exact hle
  | cons e l ih =>
    cases e with
    | field n v =>
      cases expected with
      | nil => cases h
      | cons m ms =>
        by_cases hn : n = m
        · simp only [sinkScan, hn, if_true] at h
          exact ih h (Nat.le_of_succ_le hle)
        · simp [sinkScan, hn] at h
    | commit =>
      cases expected with
      | nil => exact ih h (Nat.le_refl _)
      | cons m ms => cases h

/-- Whole batches end with a Commit: a field at the end would have been expected beside all of a batch's. -/
theorem wholeBatches.last_commit {l : List SinkEvent} {e : SinkEvent} (h : wholeBatches (l ++ [e])) : e = .commit := by
  cases e with
  | commit => rfl
  | field n v =>
    rw [wholeBatches, sinkScan_append] at h
    obtain ⟨expected, hl, he⟩ := Option.bind_eq_some_iff.mp h
    have hle := sinkScan_length hl (Nat.le_refl _)
    cases expected with
    | nil => cases he
    | cons m ms =>
      by_cases hn : n = m
      · simp only [sinkScan, hn, if_true, Option.some.injEq] at he
        simp [he] at hle
      · simp [sinkScan, hn] at he

/-- The consumer sees all of a sink of whole batches. -/
theorem sinkVisible_of_wholeBatches {sink : List SinkEvent} (h : wholeBatches sink) : sinkVisible sink = sink := by
  obtain rfl | ⟨l, e, rfl⟩ := List.eq_nil_or_concat' sink
  · rfl
  · rw [h.last_commit]
    simp [sinkVisible]

/-! ### The invariant of the digitizer side -/

@[simp] theorem penNext_servesEdge (l : List SinkEvent) : (penNext l).servesEdge = true := by cases l <;> rfl
@[simp] theorem penNext_queries (l : List SinkEvent) : (penNext l).queries = false := by cases l <;> rfl
@[simp] theorem penNext_pendingEvents (l : List SinkEvent) : (penNext l).pendingEvents = l := by cases l <;> rfl
@[simp] theorem penNext_ne_idle (l : List SinkEvent) : penNext l ≠ .idle := by cases l <;> nofun

/-- An operation in flight that goes on keeps the invariant: what is asked of the half `e` it leaves behind. -/
theorem Dig.Inv.goes_on {d e : Dig} {ph₀ ph : DigPhase} (h : d.Inv) (hp : d.phase = ph₀)
    (serve : ph.servesEdge = true → e.irqEn = true) (held : e.irqHeld = true → e.irqEn = false ∧ e.irqPend = false)
    (query : ph.queries = true → e.caps.valid = false) (batches : wholeBatches (e.sink ++ ph.pendingEvents))
    (busy : e.busy = d.busy := by rfl) (started : ph₀ ≠ .idle := by simp) (going : ph ≠ .idle := by simp) :
    (e.goto ph).Inv where
  busy_iff := by simp [busy, h.busy_iff, hp, started, going]
  serve_enabled := serve
  held_once := held
  query_empty := query
  batches := batches

/-- A micro-step that touches a port only and hands on to a phase with no more claims than its own. -/
theorem Dig.Inv.port {d e : Dig} {ph₀ ph : DigPhase} (h : d.Inv) (hp : d.phase = ph₀)
    (same : e = { d with transfers := e.transfers, reportReads := e.reportReads, trace := e.trace } := by rfl)
    (serve : ph.servesEdge = true → ph₀.servesEdge = true := by simp [DigPhase.servesEdge])
    (query : ph.queries = true → ph₀.queries = true := by simp [DigPhase.queries])
    (events : ph.pendingEvents = ph₀.pendingEvents := by rfl) (started : ph₀ ≠ .idle := by simp)
    (going : ph ≠ .idle := by simp) : (e.goto ph).Inv := by
  subst hp
  rw [same]
  exact h.goes_on rfl (h.serve_enabled ∘ serve) h.held_once (h.query_empty ∘ query) (events ▸ h.batches) rfl started
    going

/-- The sink and the events still to come, in a given phase. -/
theorem Dig.Inv.batches_of {d : Dig} {ph : DigPhase} (h : d.Inv) (hp : d.phase = ph) :
    wholeBatches (d.sink ++ ph.pendingEvents) := hp ▸ h.batches

/-- Interrupts are enabled in every phase of a service (spec/10_state.md R26). -/
theorem Dig.Inv.enabled_of {d : Dig} {ph : DigPhase} (h : d.Inv) (hp : d.phase = ph) (serve : ph.servesEdge = true) :
    d.irqEn = true := h.serve_enabled (hp ▸ serve)

/-- A micro-step of `DIG` keeps the invariant. -/
theorem Dig.Inv.micro {d : Dig} (h : d.Inv) : d.micro.1.Inv := by
  cases hp : d.phase with
  | idle => simpa only [Dig.micro, hp] using h
  | qryPulse =>
    simp only [Dig.micro, hp]
    exact h.port hp
  | qryTransfer =>
    simp only [Dig.micro, hp, qryTransfer_eq]
    cases d.nextTransfer <;> exact h.port hp
  | qryLatch rx =>
    have whole := h.batches_of hp
    simp only [Dig.micro, hp]
    exact h.goes_on hp nofun h.held_once nofun whole
  | penRecv =>
    simp only [Dig.micro, hp, penRecv_eq]
    cases d.nextRecv <;> exact h.port hp
  | penDecode raw =>
    have whole : wholeBatches d.sink := by simpa [DigPhase.pendingEvents] using h.batches_of hp
    simp only [Dig.micro, hp]
    exact h.goes_on hp (fun _ => h.enabled_of hp rfl) h.held_once (by simp) (whole.append_sample _)
  | penEmit e rest =>
    have whole : wholeBatches (d.sink ++ e :: rest) := h.batches_of hp
    simp only [Dig.micro, hp]
    exact h.goes_on hp (fun _ => h.enabled_of hp rfl) h.held_once (by simp) (by simpa using whole)
  | irqGate on =>
    have whole := h.batches_of hp
    simp only [Dig.micro, hp]
    cases on with
    | false => exact h.goes_on hp nofun (fun x => ⟨rfl, (h.held_once x).2⟩) nofun whole
    | true => exact h.goes_on hp nofun nofun nofun whole
  | ret r =>
    have whole := h.batches_of hp
    simp only [Dig.micro, hp]
    exact ⟨by simp, nofun, h.held_once, nofun, whole⟩

/-- What an edge does: nothing, or it becomes pending, or it is held, the last only while interrupts are disabled and
none is pending (spec/60_exceptions.md R246, R247). -/
theorem Dig.edge_cases (d : Dig) (draw : EdgeDraw) :
    d.edge draw = d ∨ (d.irqEn = true ∧ d.edge draw = { d with irqPend := true }) ∨
      (d.irqEn = false ∧ d.irqPend = false ∧ d.edge draw = { d with irqHeld := true }) := by
  unfold Dig.edge
  cases d.irqPend with
  | true => exact .inl rfl
  | false =>
    cases d.irqEn with
    | true => exact .inr (.inl ⟨rfl, rfl⟩)
    | false =>
      cases draw with
      | held => exact .inr (.inr ⟨rfl, rfl, rfl⟩)
      | lost => exact .inl rfl

/-- An edge keeps the invariant. -/
theorem Dig.Inv.edge {d : Dig} (h : d.Inv) (draw : EdgeDraw) : (d.edge draw).Inv := by
  obtain e | ⟨enabled, e⟩ | ⟨disabled, none, e⟩ := d.edge_cases draw
  · exact e.symm ▸ h
  · rw [e]
    exact { h with held_once := fun held => absurd enabled (by simp [(h.held_once held).1]) }
  · rw [e]
    exact { h with held_once := fun _ => ⟨disabled, none⟩ }

/-- What `SYS.RESET` writes meets the invariant: whatever edge is held, interrupts are disabled and none is pending. -/
theorem Dig.Inv.systemReset (d : Dig) : d.systemReset.Inv :=
  ⟨by simp, nofun, fun _ => ⟨rfl, rfl⟩, nofun, rfl⟩

/-! ### What one step of the machine can do to the digitizer side -/

/-- An operation of the idle `DIG` starts: `QRY.XFER`, a write of `irq_en`, or the service of a pending edge
(spec/41_pen_report.md R145). -/
inductive Dig.Starts (d : Dig) : Dig → Prop
  | query : Starts d (d.start (qryFirst d))
  | gate (on : Bool) : Starts d (d.start (.irqGate on))
  | service (ready : d.irqPend = true ∧ d.irqEn = true) : Starts d (Dig.start .penRecv { d with irqPend := false })

/-- What a step that is no `SYS.RESET` can make of the digitizer side. -/
inductive Dig.StepTo (d : Dig) : Dig → Prop
  | same : StepTo d d
  | micro : StepTo d d.micro.1
  | settle : StepTo d d.finish.1
  | edge (draw : EdgeDraw) : StepTo d (d.edge draw)
  | launch {e : Dig} (h : d.finish.1.Starts e) : StepTo d e
  | whole {e : Dig} (h : d.finish.1.Starts e) : StepTo d e.finish.1

/-- `QRY.XFER` starts as no service, with no event to emit, and as a query over an empty latch only (R117). -/
theorem qryFirst_claims (d : Dig) : qryFirst d ≠ .idle ∧ (qryFirst d).servesEdge = false ∧
    (qryFirst d).pendingEvents = [] ∧ ((qryFirst d).queries = true → d.caps.valid = false) := by
  unfold qryFirst
  split
  · exact ⟨by simp, rfl, rfl, nofun⟩
  · next empty => split <;> exact ⟨by simp, rfl, rfl, fun _ => by simpa using empty⟩

/-- A start keeps the invariant of an idle `DIG`. -/
theorem Dig.Inv.starts {d e : Dig} (h : d.Inv) (idle : d.phase = .idle) (hs : d.Starts e) : e.Inv := by
  have whole : wholeBatches (d.sink ++ []) := h.batches_of idle
  cases hs with
  | query =>
    obtain ⟨going, serve, events, query⟩ := qryFirst_claims d
    exact ⟨by simp [going], by simp [serve], h.held_once, query, by simpa [events] using whole⟩
  | gate on => exact ⟨by simp, nofun, h.held_once, nofun, whole⟩
  | service ready => exact ⟨by simp, fun _ => ready.2, fun held => ⟨(h.held_once held).1, rfl⟩, nofun, whole⟩

/-- What micro-steps, edges and starts keep, every step that is no `SYS.RESET` keeps. -/
theorem Dig.StepTo.keeps {P : Dig → Prop} {d e : Dig} (h : d.StepTo e) (micro : ∀ d : Dig, P d → P d.micro.1)
    (edge : ∀ (d : Dig) draw, P d → P (d.edge draw))
    (starts : ∀ d e : Dig, d.phase = .idle → d.Starts e → P d → P e) (hd : P d) : P e := by
  have finish : ∀ d : Dig, P d → P d.finish.1 := Dig.finish_keeps P fun d _ => micro d
  cases h with
  | same => exact hd
  | micro => exact micro d hd
  | settle => exact finish d hd
  | edge draw => exact edge d draw hd
  | launch h => exact starts _ _ d.finish_phase h (finish d hd)
  | whole h => exact finish _ (starts _ _ d.finish_phase h (finish d hd))

/-- Every step that is no `SYS.RESET` keeps the invariant of the digitizer side. -/
theorem Dig.Inv.stepTo {d e : Dig} (h : d.Inv) (hs : d.StepTo e) : e.Inv :=
  hs.keeps (fun _ => Dig.Inv.micro) (fun _ draw h => h.edge draw) (fun _ _ idle hs h => h.starts idle hs) h

/-! ### The invariant of the power side -/

/-- An operation in flight that goes on keeps the invariant: what is asked of the half `q` it leaves behind. -/
theorem Pwr.Inv.goes_on {p q : Pwr} {ph₀ ph : PwrPhase} (h : p.Inv) (hp : p.phase = ph₀)
    (iter : q.iter.toNat ≤ Config.pollMax) (rail : railFits ph q.rail) (poll : pollFits ph q.iter.toNat q.pgLast)
    (busy : q.busy = p.busy := by rfl) (started : ph₀ ≠ .idle := by simp) (going : ph ≠ .idle := by simp) :
    (q.goto ph).Inv where
  busy_iff := by simp [busy, h.busy_iff, hp, started, going]
  iter_le := iter
  rail_fits := rail
  poll_fits := poll

/-- `q` differs from `p` in nothing the sequencer decides by. -/
structure Pwr.SameControl (p q : Pwr) : Prop where
  rail : q.rail = p.rail
  iter : q.iter = p.iter
  pgLast : q.pgLast = p.pgLast
  busy : q.busy = p.busy

/-- A micro-step that touches a port only and hands on to a phase with no more claims than its own. -/
theorem Pwr.Inv.port {p q : Pwr} {ph₀ ph : PwrPhase} (h : p.Inv) (hp : p.phase = ph₀)
    (rail : ∀ r, railFits ph₀ r → railFits ph r := by exact fun _ h => h)
    (poll : ∀ i g, pollFits ph₀ i g → pollFits ph i g := by exact fun _ _ _ => trivial)
    (same : p.SameControl q := by exact ⟨rfl, rfl, rfl, rfl⟩) (started : ph₀ ≠ .idle := by simp)
    (going : ph ≠ .idle := by simp) : (q.goto ph).Inv := by
  subst hp
  refine h.goes_on rfl (same.iter ▸ h.iter_le) (same.rail ▸ rail _ h.rail_fits) ?_ same.busy started going
  rw [same.iter, same.pgLast]
  exact poll _ _ h.poll_fits

/-- Before the first read nothing has been slept. -/
theorem sleptFor_zero : sleptFor 0 0 := ⟨Nat.le_refl _, Nat.zero_le _⟩

/-- One more poll sleep, between its bounds (spec/42_power_rail_sequencer.md R163). -/
theorem sleptFor.sleep {n t : Nat} (hn : 0 < n) (h : sleptFor (n - 1) t) (overrun : Nat) :
    sleptFor n (t + sleepTime Config.pollSleepMin Config.pollSleepMax overrun) := by
  obtain ⟨m, rfl⟩ := Nat.exists_eq_add_one.mpr hn
  obtain ⟨lower, upper⟩ := h
  unfold sleptFor
  rw [Nat.add_one_mul, Nat.add_one_mul]
  exact ⟨Nat.add_le_add lower (sleepTime_ge _ _ overrun), Nat.add_le_add upper (sleepTime_le (by decide) overrun)⟩

/-- A micro-step of `PWR` keeps the invariant. -/
theorem Pwr.Inv.micro {p : Pwr} (h : p.Inv) : p.micro.1.Inv := by
  have hrail := h.rail_fits
  have hpoll := h.poll_fits
  have hiter := h.iter_le
  cases hp : p.phase with
  | idle => simpa only [Pwr.micro, hp] using h
  | ret r =>
    simp only [Pwr.micro, hp]
    rw [hp] at hrail
    exact ⟨by simp, hiter, hrail, trivial⟩
  | _ => ?_
  all_goals simp only [Pwr.micro, hp]; rw [hp] at hrail hpoll
  case enWrite => rw [railEnWrite_eq]; cases p.nextRailWrite <;> exact h.port hp
  case enRail => exact h.goes_on hp hiter rfl trivial
  case enIter => exact h.goes_on hp (Nat.zero_le _) hrail ⟨Nat.zero_lt_succ 499, sleptFor_zero, nofun⟩
  case enPoll t =>
    obtain ⟨below, -, zero⟩ := hpoll
    rw [railEnPoll_eq]
    cases p.lineAt 0 with
    | level g => exact h.port hp (poll := fun _ _ h => h)
    | err e => exact h.goes_on hp hiter hrail ⟨below, zero⟩
  case enCount t g =>
    obtain ⟨below, slept, zero⟩ := hpoll
    have count := iter_succ below
    refine h.goes_on hp ?_ hrail ?_
    · exact count.trans_le below
    · rw [Pwr.setIter_iter, count]
      exact ⟨by omega, slept, fun later => zero (by omega)⟩
  case enKeep t g =>
    obtain ⟨counted, slept, -⟩ := hpoll
    cases g with
    | false => exact h.goes_on (ph := .enSleep t) hp hiter hrail ⟨counted, slept, rfl⟩
    | true => exact h.goes_on (ph := .enGood t) hp hiter hrail ⟨counted, slept, rfl⟩
  case enSleep t =>
    obtain ⟨counted, slept, zero⟩ := hpoll
    have slept := slept.sleep counted (p.sleeps.nth Config.freeSleep 0)
    rw [railEnSleep_eq, Pwr.enNext]
    by_cases below : p.iter.toNat < Config.pollMax
    · rw [if_pos below]; exact h.goes_on hp hiter hrail ⟨below, slept, fun _ => zero⟩
    · rw [if_neg below]; exact h.goes_on hp hiter hrail ⟨hiter.antisymm (not_lt.mp below), slept, zero⟩
  case enGood t => exact h.goes_on hp hiter (.inr rfl) hpoll
  case enReport t => exact h.port hp
  case enAbort e => exact h.goes_on hp hiter (.inr rfl) trivial
  case enFail t => exact h.goes_on hp hiter rfl hpoll
  case forcedWrite t => exact h.port hp (poll := fun _ _ h => h)
  case forcedSleep t => exact h.port hp (poll := fun _ _ h => h)
  case forcedRail t => exact h.goes_on hp hiter (.inl rfl) hpoll
  case enTimeout t => exact h.port hp
  case disWrite => rw [railDisWrite_eq]; exact h.port hp
  case disSleep w => cases w <;> exact h.port hp
  case disRail => exact h.goes_on hp hiter (.inl rfl) trivial
  case isenQuery => rw [railIsenQuery_eq]; cases p.nextRailQuery <;> exact h.port hp
  case statInit => exact h.goes_on hp (Nat.zero_le _) hrail ⟨Nat.zero_lt_succ 499, nofun⟩
  case statPoll =>
    rw [railStatPoll_eq]
    cases p.lineAt 0 with
    | level g => exact h.port hp (poll := fun _ _ h => h)
    | err e => exact h.port hp
  case statCount g =>
    obtain ⟨below, zero⟩ := hpoll
    have count := iter_succ below
    refine h.goes_on hp ?_ hrail ?_
    · exact count.trans_le below
    · rw [Pwr.setIter_iter, count]
      exact ⟨by omega, fun later => zero (by omega)⟩
  case statKeep g =>
    obtain ⟨counted, -⟩ := hpoll
    cases g with
    | false => exact h.goes_on (ph := .statSleep) hp hiter hrail ⟨counted, rfl⟩
    | true => exact h.goes_on (ph := .ret _) hp hiter hrail trivial
  case statSleep =>
    obtain ⟨counted, zero⟩ := hpoll
    rw [railStatSleep_eq, Pwr.statNext]
    by_cases below : p.iter.toNat < Config.pollMax
    · rw [if_pos below]; exact h.goes_on hp hiter hrail ⟨below, fun _ => zero⟩
    · rw [if_neg below]; exact h.port hp
  case rdmvLow => rw [vcomRdmvLow_eq]; cases p.nextVcomRead <;> exact h.port hp
  case rdmvHigh => rw [vcomRdmvHigh_eq]; cases p.nextVcomRead <;> exact h.port hp
  case rduvLow => rw [vcomRduvLow_eq]; cases p.nextVcomRead <;> exact h.port hp
  case rduvHigh => rw [vcomRduvHigh_eq]; cases p.nextVcomRead <;> exact h.port hp
  case wrmvLow => rw [vcomWrmvLow_eq]; cases p.nextVcomWrite <;> exact h.port hp
  case wrmvHigh => rw [vcomWrmvHigh_eq]; cases p.nextVcomWrite <;> exact h.port hp
  case fltStateRead => rw [fltStateRead_eq]; cases p.nextFaultRead <;> exact h.port hp
  case fltPgRead => rw [fltPgRead_eq]; cases p.nextFaultRead <;> exact h.port hp

/-- What `SYS.RESET` writes meets the invariant. -/
theorem Pwr.Inv.systemReset (p : Pwr) : p.systemReset.Inv :=
  ⟨by simp, Nat.zero_le _, .inl rfl, trivial⟩

/-! ### What one step of the machine can do to the power side -/

/-- The phases an operation of `PWR` starts in. -/
inductive PwrPhase.Opens : PwrPhase → Prop
  | railEn : Opens .enWrite
  | railDis : Opens .disWrite
  | railIsen : Opens .isenQuery
  | railStat : Opens .statInit
  | vcomRdmv : Opens .rdmvLow
  | vcomRduv : Opens .rduvLow
  | vcomWrmv (v : Int) : Opens (wrmvFirst v)
  | fltState : Opens .fltStateRead
  | fltPg : Opens .fltPgRead

/-- What a step that is no `SYS.RESET` can make of the power side. -/
inductive Pwr.StepTo (p : Pwr) : Pwr → Prop
  | same : StepTo p p
  | micro : StepTo p p.micro.1
  | settle : StepTo p p.finish.1
  | line (b : Bool) : StepTo p { p with pgood := b }
  | faultReg (v : Byte) : StepTo p { p with chip := { p.chip with fault := v } }
  | launch {ph : PwrPhase} (h : ph.Opens) : StepTo p (p.finish.1.start ph)
  | whole {ph : PwrPhase} (h : ph.Opens) : StepTo p (p.finish.1.start ph).finish.1

/-- A start keeps the invariant of an idle `PWR`: the phases operations start in claim nothing. -/
theorem Pwr.Inv.start {p : Pwr} {ph : PwrPhase} (h : p.Inv) (idle : p.phase = .idle) (hs : ph.Opens) :
    (p.start ph).Inv := by
  have settled : p.rail = .disabled ∨ p.rail = .enabled := by
    have fits := h.rail_fits
    rwa [idle] at fits
  cases hs with
  | vcomWrmv v =>
    unfold wrmvFirst
    split <;> exact ⟨by simp, h.iter_le, settled, trivial⟩
  | _ => exact ⟨by simp, h.iter_le, settled, trivial⟩

/-- Every step that is no `SYS.RESET` keeps the invariant of the power side. -/
theorem Pwr.Inv.stepTo {p q : Pwr} (h : p.Inv) (hs : p.StepTo q) : q.Inv := by
  have finish : ∀ {p : Pwr}, p.Inv → p.finish.1.Inv := Pwr.finish_keeps Pwr.Inv (fun _ _ => Pwr.Inv.micro) _
  cases hs with
  | same => exact h
  | micro => exact h.micro
  | settle => exact finish h
  | line b => exact { h with }
  | faultReg v => exact { h with }
  | launch opens => exact (finish h).start p.finish_phase opens
  | whole opens => exact finish ((finish h).start p.finish_phase opens)

/-! ### What an operation makes of each half (spec/10_state.md R21) -/

/-- A whole `DIG` operation from this phase, after the one in flight if there is one: `State.runDig` on its half. -/
def Dig.whole (ph : DigPhase) (d : Dig) : Dig := (d.finish.1.start ph).finish.1

/-- A whole `PWR` operation from this phase: `State.runPwr` on its half. -/
def Pwr.whole (ph : PwrPhase) (p : Pwr) : Pwr := (p.finish.1.start ph).finish.1

@[simp] theorem State.runDig_dig (ph : DigPhase) (s : State) : (s.runDig ph).dig = s.dig.whole ph := rfl
@[simp] theorem State.runPwr_pwr (ph : PwrPhase) (s : State) : (s.runPwr ph).pwr = s.pwr.whole ph := rfl

/-- The digitizer side after an operation, as a function of the digitizer side alone. -/
def digAfter (i : Instr) (d : Dig) : Dig :=
  match i with
  | .sysReset => d.finish.1.systemReset
  | .qryXfer => d.finish.1.whole (qryFirst d.finish.1)
  | .penIrq =>
    if d.finish.1.irqPend && d.finish.1.irqEn then Dig.whole .penRecv { d.finish.1 with irqPend := false }
    else d.finish.1
  | .irqEn => d.whole (.irqGate true)
  | .irqDis => d.whole (.irqGate false)
  | .qryDec _ => d.finish.1
  | .penDec _ _ => d.finish.1
  | _ => d

/-- The power side after an operation, as a function of the power side alone. -/
def pwrAfter (i : Instr) (p : Pwr) : Pwr :=
  match i with
  | .sysReset => p.finish.1.systemReset
  | .railEn => p.whole .enWrite
  | .railDis => p.whole .disWrite
  | .railIsen => p.whole .isenQuery
  | .railStat => p.whole .statInit
  | .vcomDec _ _ => p.finish.1
  | .vcomDecuv _ _ => p.finish.1
  | .vcomEnc _ => p.finish.1
  | .vcomRdmv => p.whole .rdmvLow
  | .vcomRduv => p.whole .rduvLow
  | .vcomWrmv v => p.whole (wrmvFirst v)
  | .fltState => p.whole .fltStateRead
  | .fltPg => p.whole .fltPgRead
  | _ => p

/-- An operation makes of each half what it makes of that half alone. -/
theorem exec_halves {i : Instr} {s t : State} (h : exec i s = .next t) :
    t.dig = digAfter i s.dig ∧ t.pwr = pwrAfter i s.pwr := by
  cases i with
  | penIrq =>
    cases h
    cases ready : s.settleDig.edgeReady with
    | true => exact ⟨(if_pos ready).symm, rfl⟩
    | false => exact ⟨(if_neg (ne_true_of_eq_false ready)).symm, rfl⟩
  | _ => cases h; exact ⟨rfl, rfl⟩

/-- An idle `DIG` has nothing to finish. -/
theorem Dig.finish_fst_of_idle {d : Dig} (h : d.phase = .idle) : d.finish.1 = d := by rw [Dig.finish_idle h]

/-- An idle `PWR` has nothing to finish. -/
theorem Pwr.finish_fst_of_idle {p : Pwr} (h : p.phase = .idle) : p.finish.1 = p := by rw [Pwr.finish_idle h]

/-- To finish twice is to finish once. -/
@[simp] theorem Dig.finish_finish (d : Dig) : d.finish.1.finish.1 = d.finish.1 :=
  Dig.finish_fst_of_idle d.finish_phase

/-- An operation but `SYS.RESET` makes of the digitizer side what a step can. -/
theorem digAfter_stepTo {i : Instr} (h : i ≠ .sysReset) (d : Dig) : d.StepTo (digAfter i d) := by
  cases i with
  | sysReset => exact absurd rfl h
  | qryXfer =>
    rw [digAfter, Dig.whole, Dig.finish_finish]
    exact .whole .query
  | penIrq =>
    rw [digAfter]
    split
    · next ready =>
      rw [Dig.whole, Dig.finish_fst_of_idle (d := { d.finish.1 with irqPend := false }) d.finish_phase]
      exact .whole (.service (by simpa using ready))
    · exact .settle
  | irqEn => exact .whole (.gate true)
  | irqDis => exact .whole (.gate false)
  | qryDec | penDec => exact .settle
  | _ => exact .same

/-- An operation but `SYS.RESET` makes of the power side what a step can. -/
theorem pwrAfter_stepTo {i : Instr} (h : i ≠ .sysReset) (p : Pwr) : p.StepTo (pwrAfter i p) := by
  cases i with
  | sysReset => exact absurd rfl h
  | railEn => exact .whole .railEn
  | railDis => exact .whole .railDis
  | railIsen => exact .whole .railIsen
  | railStat => exact .whole .railStat
  | vcomDec | vcomDecuv | vcomEnc => exact .settle
  | vcomRdmv => exact .whole .vcomRdmv
  | vcomRduv => exact .whole .vcomRduv
  | vcomWrmv v => exact .whole (.vcomWrmv v)
  | fltState => exact .whole .fltState
  | fltPg => exact .whole .fltPg
  | _ => exact .same

/-- An operation of the digitizer side leaves the power side alone. -/
theorem pwrAfter_of_dig {i : Instr} {p : Pwr} (side : sideOf i = some .dig) : pwrAfter i p = p := by
  cases i with
  | qryXfer | qryDec | penIrq | penDec | irqEn | irqDis => rfl
  | _ => cases side

/-- An operation of the power side leaves the digitizer side alone. -/
theorem digAfter_of_pwr {i : Instr} {d : Dig} (side : sideOf i = some .pwr) : digAfter i d = d := by
  cases i with
  | sysReset | qryXfer | qryDec | penIrq | penDec | irqEn | irqDis => cases side
  | _ => rfl

/-- A pure operation leaves its own idle side alone too (spec/30_encoding.md R96). -/
theorem digAfter_of_pure {i : Instr} {d : Dig} (side : sideOf i = some .dig) (pure : agentOf i = none)
    (idle : d.phase = .idle) : digAfter i d = d := by
  cases i with
  | qryDec | penDec => exact Dig.finish_fst_of_idle idle
  | qryXfer | penIrq | irqEn | irqDis => cases pure
  | _ => cases side

/-- A pure operation leaves its own idle side alone too (R96). -/
theorem pwrAfter_of_pure {i : Instr} {p : Pwr} (side : sideOf i = some .pwr) (pure : agentOf i = none)
    (idle : p.phase = .idle) : pwrAfter i p = p := by
  cases i with
  | vcomDec | vcomDecuv | vcomEnc => exact Pwr.finish_fst_of_idle idle
  | sysReset | qryXfer | qryDec | penIrq | penDec | irqEn | irqDis => cases side
  | _ => cases pure

/-! ### What one step can do to the two halves -/

/-- What a step that is no `SYS.RESET` can make of both halves. -/
def State.StepTo (s t : State) : Prop := s.dig.StepTo t.dig ∧ s.pwr.StepTo t.pwr

/-- What `SYS.RESET` makes of both halves. -/
def State.ResetTo (s t : State) : Prop := t.dig = s.dig.finish.1.systemReset ∧ t.pwr = s.pwr.finish.1.systemReset

/-- The next move is the command 0x00, `SYS.RESET`. -/
def State.resetNext (s : State) : Prop :=
  ∃ operands more, s.inbox = .command 0x00 operands :: more ∨ s.inbox = .launch 0x00 operands :: more

/-- An operation but `SYS.RESET` is what a step can do. -/
theorem exec_stepTo {i : Instr} {s t : State} (hi : i ≠ .sysReset) (h : exec i s = .next t) : s.StepTo t := by
  obtain ⟨hd, hp⟩ := exec_halves h
  exact ⟨hd ▸ digAfter_stepTo hi s.dig, hp ▸ pwrAfter_stepTo hi s.pwr⟩

/-- The start of an operation but `SYS.RESET` is what a step can do. -/
theorem launch_stepTo {i : Instr} {s t : State} (hi : i ≠ .sysReset) (h : launch i s = .next t) : s.StepTo t := by
  cases i with
  | sysReset => exact absurd rfl hi
  | qryDec | penDec | vcomDec | vcomDecuv | vcomEnc => exact exec_stepTo hi h
  | penIrq => cases h; exact ⟨.same, .same⟩
  | qryXfer =>
    cases h
    have started : (launchQryXfer s).dig = s.dig.finish.1.start (qryFirst s.dig.finish.1) :=
      congrArg (Dig.start _) s.dig.finish_finish
    exact ⟨started ▸ .launch .query, .same⟩
  | irqEn => cases h; exact ⟨.launch (.gate true), .same⟩
  | irqDis => cases h; exact ⟨.launch (.gate false), .same⟩
  | railEn => cases h; exact ⟨.same, .launch .railEn⟩
  | railDis => cases h; exact ⟨.same, .launch .railDis⟩
  | railIsen => cases h; exact ⟨.same, .launch .railIsen⟩
  | railStat => cases h; exact ⟨.same, .launch .railStat⟩
  | vcomRdmv => cases h; exact ⟨.same, .launch .vcomRdmv⟩
  | vcomRduv => cases h; exact ⟨.same, .launch .vcomRduv⟩
  | vcomWrmv v => cases h; exact ⟨.same, .launch (.vcomWrmv v)⟩
  | fltState => cases h; exact ⟨.same, .launch .fltState⟩
  | fltPg => cases h; exact ⟨.same, .launch .fltPg⟩

/-! ### From a command frame to the operation it runs (spec/30_encoding.md R95, R98) -/

/-- What is decoded with a query buffer is `QRY.DEC`. -/
theorem decodeQbuf_ok {code : Byte} {l rest : List Byte} {i : Instr} (h : decodeQbuf code l = .ok i rest) :
    ∃ q, i = .qryDec q := by
  unfold decodeQbuf at h
  split at h <;> cases h
  exact ⟨_, rfl⟩

/-- What is decoded with a pen report is `PEN.DEC`. -/
theorem decodeRaw_ok {code : Byte} {l rest : List Byte} {i : Instr} (h : decodeRaw code l = .ok i rest) :
    ∃ raw ts, i = .penDec raw ts := by
  unfold decodeRaw at h
  split at h <;> cases h
  exact ⟨_, _, rfl⟩

/-- What is decoded with two bytes is the operation on two bytes. -/
theorem decodePair_ok {code : Byte} {mk : Byte → Byte → Instr} {l rest : List Byte} {i : Instr}
    (h : decodePair code mk l = .ok i rest) : ∃ low high, i = mk low high := by
  unfold decodePair at h
  split at h <;> cases h
  exact ⟨_, _, rfl⟩

/-- What is decoded with an integer is the operation on an integer. -/
theorem decodeInt_ok {code : Byte} {mk : Int → Instr} {l rest : List Byte} {i : Instr}
    (h : decodeInt code mk l = .ok i rest) : ∃ v, i = mk v := by
  unfold decodeInt at h
  split at h <;> cases h
  exact ⟨_, rfl⟩

/-- A command frame decodes to an operation of its own code (spec/30_encoding.md R95). -/
theorem code_of_decode {code : Byte} {l rest : List Byte} {i : Instr} (h : decode (code :: l) = .ok i rest) :
    i.code = code := by
  simp only [decode] at h
  split at h
  case h_3 hc => obtain ⟨q, rfl⟩ := decodeQbuf_ok h; exact BitVec.eq_of_toNat_eq hc.symm
  case h_5 hc => obtain ⟨raw, ts, rfl⟩ := decodeRaw_ok h; exact BitVec.eq_of_toNat_eq hc.symm
  case h_12 hc | h_13 hc => obtain ⟨low, high, rfl⟩ := decodePair_ok h; exact BitVec.eq_of_toNat_eq hc.symm
  case h_14 hc | h_17 hc => obtain ⟨v, rfl⟩ := decodeInt_ok h; exact BitVec.eq_of_toNat_eq hc.symm
  case h_20 => cases h
  all_goals next hc => cases h; exact BitVec.eq_of_toNat_eq hc.symm

/-- A command frame that is answered with a next state was illegal and changed neither half, or is the start or the
run of the operation it decodes to. -/
theorem issue_next {go : Instr → State → Host.Outcome State Fault Refusal} {code : Byte} {operands : List Byte}
    {s t : State} (h : issue go code operands s = .next t) :
    t = s.illegal ∨ ∃ i rest, decode (code :: operands) = .ok i rest ∧ go i s = .next t := by
  unfold issue at h
  split at h
  · next i rest hd =>
    split at h
    · exact .inr ⟨i, rest, hd, h⟩
    · cases h; exact .inl rfl
  · cases h
  · cases h; exact .inl rfl
  · cases h; exact .inl rfl

/-- If every operation but `SYS.RESET` is what a step can do, so is the answer to a command frame, or its code is that
of `SYS.RESET`. -/
theorem issue_stepTo {go : Instr → State → Host.Outcome State Fault Refusal} {code : Byte} {operands : List Byte}
    {s t : State} (hgo : ∀ i, i ≠ .sysReset → go i s = .next t → s.StepTo t)
    (hreset : go .sysReset s = exec .sysReset s) (h : issue go code operands s = .next t) :
    s.StepTo t ∨ code = 0x00 ∧ s.ResetTo t := by
  obtain rfl | ⟨i, rest, hd, hi⟩ := issue_next h
  · exact .inl ⟨.same, .same⟩
  · by_cases reset : i = .sysReset
    · subst reset
      exact .inr ⟨(code_of_decode hd).symm, exec_halves (i := .sysReset) (hreset ▸ hi)⟩
    · exact .inl (hgo i reset hi)

/-! ### One step -/

/-- The service of a pending edge is what a step can do. -/
theorem serve_stepTo {s t : State} (h : serve s = .next t) : s.StepTo t := by
  unfold serve at h
  split at h
  · obtain ⟨hd, hp⟩ := exec_halves h
    have served : t.dig = digAfter .penIrq s.dig := by
      rw [hd]
      change digAfter .penIrq s.dig.finish.1 = _
      simp only [digAfter, Dig.finish_finish]
    exact ⟨served ▸ digAfter_stepTo (by simp) s.dig, hp ▸ .same⟩
  · cases h; exact ⟨.settle, .same⟩

/-- The start of the service of a pending edge is what a step can do. -/
theorem launchServe_stepTo {s t : State} (h : launchServe s = .next t) : s.StepTo t := by
  cases h
  split
  · next ready =>
    have started : s.settleDig.launchPen.dig = Dig.start .penRecv { s.dig.finish.1 with irqPend := false } :=
      congrArg (Dig.start _) (Dig.finish_fst_of_idle (d := { s.dig.finish.1 with irqPend := false }) s.dig.finish_phase)
    exact ⟨started ▸ .launch (.service (Bool.and_eq_true_iff.mp ready)), .same⟩
  · exact ⟨.settle, .same⟩

/-- What the block does by itself is what a step can do. -/
theorem unattended_stepTo {s t : State} (h : unattended s = .next t) : s.StepTo t := by
  unfold unattended at h
  split at h
  · cases h; exact ⟨.micro, .same⟩
  · split at h
    · cases h; exact ⟨.same, .micro⟩
    · split at h
      · exact exec_stepTo (by simp) h
      · cases h; exact ⟨.same, .same⟩

/-- A step with a move left makes that move. -/
theorem step_of_inbox {s : State} {m : Move} {more : List Move} (h : s.inbox = m :: more) :
    step s = perform m { s with inbox := more } := by
  simp only [step, stepMove, h]

/-- What one step can do to the two halves: one thing to each, or `SYS.RESET` where the next move asks for it. -/
theorem step_halves {s t : State} (h : step s = .next t) : s.StepTo t ∨ s.resetNext ∧ s.ResetTo t := by
  cases hin : s.inbox with
  | nil =>
    simp only [step, stepMove, hin] at h
    exact .inl (unattended_stepTo h)
  | cons m more =>
    rw [step_of_inbox hin] at h
    cases m with
    | command code operands =>
      refine (issue_stepTo (fun _ => exec_stepTo) rfl h).imp_right fun ⟨zero, reset⟩ => ⟨?_, reset⟩
      exact ⟨operands, more, .inl (zero ▸ hin)⟩
    | launch code operands =>
      refine (issue_stepTo (fun _ => launch_stepTo) rfl h).imp_right fun ⟨zero, reset⟩ => ⟨?_, reset⟩
      exact ⟨operands, more, .inr (zero ▸ hin)⟩
    | advance a =>
      cases h
      cases a with
      | dig => exact .inl ⟨.micro, .same⟩
      | pwr => exact .inl ⟨.same, .micro⟩
    | service => exact .inl (serve_stepTo (s := { s with inbox := more }) h)
    | launchService => exact .inl (launchServe_stepTo (s := { s with inbox := more }) h)
    | edge draw => cases h; exact .inl ⟨.edge draw, .same⟩
    | line b => cases h; exact .inl ⟨.same, .line b⟩
    | faultReg v => cases h; exact .inl ⟨.same, .faultReg v⟩
    | readCaps =>
      left
      simp only [perform, readCaps] at h
      split at h
      · cases h; exact ⟨.same, .same⟩
      · cases h
    | readCapsValid => cases h; exact .inl ⟨.same, .same⟩

/-! ### Every step keeps the invariant -/

/-- Settles O13: a step makes of each half what `step_halves` says, and each of these keeps that half's invariant. -/
theorem stepKeepsInv : Obligations.StepKeepsInv := by
  intro s t inv h
  obtain ⟨hd, hp⟩ | ⟨-, hd, hp⟩ := step_halves h
  · exact ⟨inv.dig.stepTo hd, inv.pwr.stepTo hp⟩
  · exact ⟨hd ▸ Dig.Inv.systemReset _, hp ▸ Pwr.Inv.systemReset _⟩

/-! ### The halves apart (R21) -/

/-- Settles O14: the side of an operation says which of the two halves it leaves alone; a pure one only finishes what
its side has in flight. -/
theorem halvesShareNothing : Obligations.HalvesShareNothing := by
  intro s t i h
  obtain ⟨hd, hp⟩ := exec_halves h
  rw [hd, hp]
  refine ⟨pwrAfter_of_dig, digAfter_of_pwr, fun a side pure idle => ?_⟩
  cases a with
  | dig => exact ⟨digAfter_of_pure side pure idle, pwrAfter_of_dig side⟩
  | pwr => exact ⟨digAfter_of_pwr side, pwrAfter_of_pure side pure idle⟩

/-- Settles O15: each half after an operation is a function of that half alone (`exec_halves`). -/
theorem halvesAreBlind : Obligations.HalvesAreBlind := by
  intro s s' t t' i h h'
  obtain ⟨hd, hp⟩ := exec_halves h
  obtain ⟨hd', hp'⟩ := exec_halves h'
  rw [hd, hd', hp, hp']
  exact ⟨congrArg _, congrArg _⟩

/-! ### The limits (spec/10_state.md R22) -/

/-- No micro-step outside a query writes `caps`. -/
theorem Dig.micro_caps {d : Dig} (h : d.phase.queries = false) : d.micro.1.caps = d.caps := by
  cases hp : d.phase with
  | qryLatch rx => rw [hp] at h; cases h
  | qryTransfer => rw [hp] at h; cases h
  | penRecv => simp only [Dig.micro, hp, penRecv_eq]; cases d.nextRecv <;> rfl
  | irqGate on => cases on <;> simp [Dig.micro, hp, irqGate]
  | _ => simp [Dig.micro, hp, penLatch, penEmit, qryPulse]

/-- Under the invariant no query is in flight over latched limits (spec/40_query_report.md R117). -/
theorem Dig.Inv.no_query {d : Dig} (h : d.Inv) (latched : d.caps.valid = true) : d.phase.queries = false := by
  by_contra query
  simp [h.query_empty (by simpa using query)] at latched

@[simp] theorem Dig.edge_caps (draw : EdgeDraw) (d : Dig) : (d.edge draw).caps = d.caps := by
  obtain e | ⟨-, e⟩ | ⟨-, -, e⟩ := d.edge_cases draw <;> rw [e]

@[simp] theorem Dig.edge_tool (draw : EdgeDraw) (d : Dig) : (d.edge draw).tool = d.tool := by
  obtain e | ⟨-, e⟩ | ⟨-, -, e⟩ := d.edge_cases draw <;> rw [e]

/-- A start writes no limits. -/
theorem Dig.Starts.caps {d e : Dig} (h : d.Starts e) : e.caps = d.caps := by cases h <;> rfl

/-- A start writes no tool state. -/
theorem Dig.Starts.tool {d e : Dig} (h : d.Starts e) : e.tool = d.tool := by cases h <;> rfl

/-- The invariant, over the latched limits `l`. -/
def Dig.Latched (l : Limits) (d : Dig) : Prop := d.Inv ∧ d.caps = { valid := true, limits := l }

/-- No step but `SYS.RESET` changes latched limits. -/
theorem Dig.Latched.stepTo {l : Limits} {d e : Dig} (h : d.Latched l) (hs : d.StepTo e) : e.Latched l := by
  refine hs.keeps ?_ ?_ ?_ h
  · rintro d ⟨inv, caps⟩
    exact ⟨inv.micro, (Dig.micro_caps (inv.no_query (by rw [caps]))).trans caps⟩
  · rintro d draw ⟨inv, caps⟩
    exact ⟨inv.edge draw, (d.edge_caps draw).trans caps⟩
  · rintro d e idle hs ⟨inv, caps⟩
    exact ⟨inv.starts idle hs, hs.caps.trans caps⟩

/-- Settles O19: what `step_halves` leaves beside `SYS.RESET` keeps latched limits. -/
theorem capsImmutable : Obligations.CapsImmutable := by
  intro s t inv valid h
  obtain ⟨hd, -⟩ | ⟨reset, -⟩ := step_halves h
  · have latched : s.dig.Latched s.dig.caps.limits := ⟨inv.dig, by rw [← valid]⟩
    exact .inl ((latched.stepTo hd).2.trans latched.2.symm)
  · exact .inr reset

/-! ### The tool kind (spec/10_state.md R25) -/

/-- A service whose report is not yet decoded. -/
def DigPhase.decodes (ph : DigPhase) : Bool :=
  match ph with
  | .penRecv => true
  | .penDecode _ => true
  | _ => false

@[simp] theorem penNext_decodes (l : List SinkEvent) : (penNext l).decodes = false := by cases l <;> rfl

/-- Only the decode of a report writes `tool`. -/
theorem Dig.micro_tool {d : Dig} (h : ∀ raw, d.phase ≠ .penDecode raw) : d.micro.1.tool = d.tool := by
  cases hp : d.phase with
  | penDecode raw => exact absurd hp (h raw)
  | qryTransfer => simp only [Dig.micro, hp, qryTransfer_eq]; cases d.nextTransfer <;> rfl
  | penRecv => simp only [Dig.micro, hp, penRecv_eq]; cases d.nextRecv <;> rfl
  | irqGate on => cases on <;> simp [Dig.micro, hp, irqGate]
  | _ => simp [Dig.micro, hp, qryLatch, penEmit, qryPulse]

/-- While proximity is signalled the decode keeps the tool kind (spec/41_pen_report.md R138). -/
theorem Dig.micro_kind {d : Dig} (h : d.phase.decodes = true → d.tool.prox = true) :
    d.micro.1.tool.kind = d.tool.kind := by
  cases hp : d.phase with
  | penDecode raw => simp [Dig.micro, hp, penLatch, penDecode, latchTool, latchKind, h (by rw [hp]; rfl)]
  | _ => rw [Dig.micro_tool (by simp [hp])]

/-- A report still to be decoded after a micro-step was so before it, with the same `tool`. -/
theorem Dig.micro_decodes {d : Dig} (h : d.micro.1.phase.decodes = true) :
    d.phase.decodes = true ∧ d.micro.1.tool = d.tool := by
  cases hp : d.phase with
  | penRecv => exact ⟨rfl, Dig.micro_tool (by simp [hp])⟩
  | idle => simp [Dig.micro, hp, DigPhase.decodes] at h
  | qryTransfer =>
    simp only [Dig.micro, hp, qryTransfer_eq] at h
    cases ha : d.nextTransfer <;> simp [ha, DigPhase.decodes] at h
  | penDecode raw => simp [Dig.micro, hp, penLatch] at h
  | penEmit e rest => simp [Dig.micro, hp, penEmit] at h
  | _ => simp [Dig.micro, hp, qryPulse, qryLatch, irqGate, DigPhase.decodes] at h

/-- The tool kind is `k`, and the last report signalled proximity if there is another one to decode. -/
def Dig.InStroke (k : ToolKind) (d : Dig) : Prop :=
  d.tool.kind = k ∧ (d.phase.decodes = true → d.tool.prox = true)

/-- A micro-step keeps the tool kind in a stroke. -/
theorem Dig.InStroke.micro {k : ToolKind} {d : Dig} (h : d.InStroke k) : d.micro.1.InStroke k := by
  refine ⟨(Dig.micro_kind h.2).trans h.1, fun later => ?_⟩
  obtain ⟨now, same⟩ := Dig.micro_decodes later
  exact same ▸ h.2 now

/-- From an idle `DIG` in proximity no step but `SYS.RESET` changes the tool kind: at most one report is decoded. -/
theorem Dig.StepTo.kind {d e : Dig} (h : d.StepTo e) (idle : d.phase = .idle) (prox : d.tool.prox = true) :
    e.tool.kind = d.tool.kind := by
  have started : ∀ {e : Dig}, d.finish.1.Starts e → e.tool = d.tool := fun hs =>
    hs.tool.trans (congrArg Dig.tool (Dig.finish_fst_of_idle idle))
  cases h with
  | same => rfl
  | micro => exact Dig.micro_kind fun _ => prox
  | settle => rw [Dig.finish_fst_of_idle idle]
  | edge draw => rw [Dig.edge_tool]
  | launch hs => rw [started hs]
  | @whole e hs =>
    have stroke : e.InStroke d.tool.kind := by
      rw [Dig.InStroke, started hs]
      exact ⟨rfl, fun _ => prox⟩
    exact (Dig.finish_keeps (Dig.InStroke d.tool.kind) (fun _ _ => Dig.InStroke.micro) e stroke).1

/-- Settles O20: the latch rule for one micro-step, and the one report a step from an idle `DIG` can decode. -/
theorem toolKindStableInStroke : Obligations.ToolKindStableInStroke := by
  refine ⟨fun d prox => Dig.micro_kind fun _ => prox, fun s t idle prox h => ?_⟩
  obtain ⟨hd, -⟩ | ⟨reset, -⟩ := step_halves h
  · exact .inl (hd.kind idle prox)
  · exact .inr reset

/-! ### The sink, power-on, and the moves of the host and the environment -/

/-- Settles O22: an idle `DIG` has no event to come, so its sink holds whole batches. -/
theorem sinkWholeBetweenOperations : Obligations.SinkWholeBetweenOperations := by
  intro d inv idle
  have whole : wholeBatches (d.sink ++ []) := inv.batches_of idle
  exact sinkVisible_of_wholeBatches (by simpa using whole)

/-- Settles O1: the fields of `State.reset`. -/
theorem powerOnValues : Obligations.PowerOnValues :=
  ⟨rfl, rfl, rfl, rfl, rfl, rfl, rfl, rfl, rfl, rfl⟩

/-- Settles O2: both sides are idle at power-on, with interrupts disabled, an empty sink and the rail Disabled. -/
theorem powerOnMeetsInv : Obligations.PowerOnMeetsInv where
  dig := ⟨by decide, nofun, nofun, nofun, rfl⟩
  pwr := ⟨by decide, Nat.zero_le _, .inl rfl, trivial⟩

/-- Settles O12: the step makes the move, which reads `caps.valid` first where it reads the limits. -/
theorem capsReadOrFault : Obligations.CapsReadOrFault := by
  intro s more
  refine ⟨fun h => step_of_inbox h, fun h => ?_⟩
  rw [step_of_inbox h]
  rfl

/-- Settles O60: the step makes the move, which writes the one field. -/
theorem environmentMoves : Obligations.EnvironmentMoves := by
  intro s more
  exact ⟨fun _ h => step_of_inbox h, fun _ h => step_of_inbox h⟩

end Sys2Proof.Machine
end

section
/-! SUPPORT. The proofs of the statements of spec/20_memory.md: the order of the two agents' micro-steps (R65), and the
wait of an operation for the one in flight on its side (R62, R63). -/

namespace Sys2Proof.Machine

/-! ### Interleavings (R65) -/

@[simp] theorem State.advance_dig_dig (s : State) : (s.advance .dig).dig = s.dig.micro.1 := rfl
@[simp] theorem State.advance_dig_pwr (s : State) : (s.advance .dig).pwr = s.pwr := rfl
@[simp] theorem State.advance_pwr_dig (s : State) : (s.advance .pwr).dig = s.dig := rfl
@[simp] theorem State.advance_pwr_pwr (s : State) : (s.advance .pwr).pwr = s.pwr.micro.1 := rfl

/-- Settles O16, by induction on the schedule: a micro-step is one more of its own agent's and leaves the other half
alone (spec/10_state.md R21). -/
theorem interleavingsAgree : Obligations.InterleavingsAgree := by
  intro order
  induction order with
  | nil => exact fun _ => ⟨rfl, rfl⟩
  | cons a rest ih =>
    intro s
    obtain ⟨hd, hp⟩ := ih (s.advance a)
    rw [State.schedule, hd, hp]
    cases a with
    | dig => simp [Dig.steps]
    | pwr => simp [Pwr.steps]

/-! ### The wait for the operation in flight (R62, R63) -/

/-- A settled `DIG` has nothing left to finish. -/
@[simp] theorem State.settleDig_settleDig (s : State) : s.settleDig.settleDig = s.settleDig :=
  State.settleDig_idle s.settleDig_phase

/-- A settled `PWR` has nothing left to finish. -/
@[simp] theorem State.settlePwr_settlePwr (s : State) : s.settlePwr.settlePwr = s.settlePwr :=
  State.settlePwr_idle s.settlePwr_phase

/-- A whole `DIG` operation waits for the one in flight. -/
@[simp] theorem State.runDig_settleDig (ph : DigPhase) (s : State) : s.settleDig.runDig ph = s.runDig ph := by
  rw [State.runDig, State.launchDig, State.settleDig_settleDig]
  rfl

/-- A whole `PWR` operation waits for the one in flight. -/
@[simp] theorem State.runPwr_settlePwr (ph : PwrPhase) (s : State) : s.settlePwr.runPwr ph = s.runPwr ph := by
  rw [State.runPwr, State.launchPwr, State.settlePwr_settlePwr]
  rfl

/-- A pure operation of the digitizer side's units waits for `DIG` (log entry 30). -/
@[simp] theorem State.answerDig_settleDig (r : Result) (s : State) : s.settleDig.answerDig r = s.answerDig r :=
  State.answerDig_idle r s.settleDig_phase

/-- A pure operation of the power side's units waits for `PWR` (log entry 30). -/
@[simp] theorem State.answerPwr_settlePwr (r : Result) (s : State) : s.settlePwr.answerPwr r = s.answerPwr r :=
  State.answerPwr_idle r s.settlePwr_phase

/-- `SYS.RESET` waits for both agents (spec/70_reset_and_hazards.md R282). -/
theorem State.systemReset_settled (s : State) : s.settleDig.settlePwr.systemReset = s.systemReset := by
  have dig : s.settleDig.settlePwr.settleDig = s.settleDig.settlePwr := State.settleDig_idle s.settleDig_phase
  rw [State.systemReset, dig, State.settlePwr_settlePwr]
  rfl

/-- An operation waits for the one in flight on its side. -/
theorem exec_settle {i : Instr} {a : Agent} (side : sideOf i = some a) (s : State) :
    exec i (s.settle a) = exec i s := by
  cases i with
  | sysReset => cases side
  | qryXfer => cases side; simp only [exec, execQryXfer, State.settle, State.settleDig_settleDig]
  | penIrq => cases side; simp only [exec, execPenIrq, State.settle, State.settleDig_settleDig]
  | qryDec | penDec => cases side; exact congrArg Host.Outcome.next (State.answerDig_settleDig _ s)
  | irqEn | irqDis => cases side; exact congrArg Host.Outcome.next (State.runDig_settleDig _ s)
  | vcomDec | vcomDecuv | vcomEnc => cases side; exact congrArg Host.Outcome.next (State.answerPwr_settlePwr _ s)
  | _ => cases side; exact congrArg Host.Outcome.next (State.runPwr_settlePwr _ s)

/-- `SYS.RESET` waits for both agents, and answers the same after the wait. -/
theorem exec_sysReset_settled (s : State) : exec .sysReset s.settleDig.settlePwr = exec .sysReset s := by
  simp only [exec, execSysReset, State.systemReset_settled]

/-! ### The end of an operation (R61) -/

/-- Every operation answers a next state: none faults, none is refused. -/
theorem exec_next (i : Instr) (s : State) : ∃ t, exec i s = .next t := by
  cases i <;> exact ⟨_, rfl⟩

/-- An operation of the digitizer side leaves `DIG` idle. -/
theorem digAfter_phase {i : Instr} (side : sideOf i = some .dig) (d : Dig) : (digAfter i d).phase = .idle := by
  cases i with
  | qryXfer | qryDec | penDec | irqEn | irqDis => exact Dig.finish_phase _
  | penIrq => rw [digAfter]; split <;> exact Dig.finish_phase _
  | _ => cases side

/-- An operation of the power side leaves `PWR` idle. -/
theorem pwrAfter_phase {i : Instr} (side : sideOf i = some .pwr) (p : Pwr) : (pwrAfter i p).phase = .idle := by
  cases i with
  | sysReset | qryXfer | qryDec | penIrq | penDec | irqEn | irqDis => cases side
  | _ => exact Pwr.finish_phase _

/-- An operation leaves its side idle. -/
theorem exec_agentIdle {i : Instr} {a : Agent} {s t : State} (side : sideOf i = some a) (h : exec i s = .next t) :
    t.agentIdle a := by
  obtain ⟨hd, hp⟩ := exec_halves h
  cases a with
  | dig => exact (congrArg Dig.phase hd).trans (digAfter_phase side _)
  | pwr => exact (congrArg Pwr.phase hp).trans (pwrAfter_phase side _)

/-- Only `SYS.RESET` belongs to both sides. -/
theorem eq_sysReset_of_side {i : Instr} (h : sideOf i = none) : i = .sysReset := by
  cases i with
  | sysReset => rfl
  | _ => cases h

/-- Settles O18: every operation ends with its side idle (`exec_agentIdle`) and is the same after its wait
(`exec_settle`); `SYS.RESET` writes both phases and waits for both sides (`exec_sysReset_settled`). -/
theorem everyOperationEnds : Obligations.EveryOperationEnds := by
  intro s i
  obtain ⟨t, ht⟩ := exec_next i s
  refine ⟨t, ht, fun a side => ⟨exec_agentIdle side ht, (exec_settle side s).trans ht⟩, fun side => ?_⟩
  cases eq_sysReset_of_side side
  cases ht
  exact ⟨⟨rfl, rfl⟩, exec_sysReset_settled s⟩

end Sys2Proof.Machine
end

section
/-! SUPPORT. The proofs of the statements of spec/30_encoding.md: the command map read back from its own bytes
(R87, R90, R95), the answer to an illegal code (R98), and what the rail and VCOM operations leave alone (R96). -/

namespace Sys2Proof

/-! ### Operands read back from their bytes (log entry 1) -/

/-- A buffer is read back from its bytes, and what follows is left. -/
@[simp] theorem takeBuf_append {n : Nat} (buf : Vector Byte n) (rest : List Byte) :
    takeBuf n (buf.toList ++ rest) = some (buf, rest) := by
  simp [takeBuf, Vector.toArray_toList]

/-- The four bytes of a 32-bit word, most significant first, are the word. -/
theorem append_extract_bytes (w : BitVec 32) :
    w.extractLsb' 24 8 ++ w.extractLsb' 16 8 ++ w.extractLsb' 8 8 ++ w.extractLsb' 0 8 = w := by
  rw [BitVec.extractLsb'_append_extractLsb'_eq_extractLsb' (show 24 = 16 + 8 from rfl),
    BitVec.extractLsb'_append_extractLsb'_eq_extractLsb' (show 16 = 8 + 8 from rfl),
    BitVec.extractLsb'_append_extractLsb'_eq_extractLsb' (show 8 = 0 + 8 from rfl)]
  exact BitVec.extractLsb'_eq_self

/-- A signed integer of 32 bits is read back from its bytes (spec/30_encoding.md R90). -/
theorem decodeInt_append {v : Int} (h : fitsSigned32 v = true) (code : Byte) (mk : Int → Instr) (rest : List Byte) :
    decodeInt code mk (signed32Bytes v ++ rest) = .ok (mk v) rest := by
  obtain ⟨lower, upper⟩ : -(2 ^ 31) ≤ v ∧ v < 2 ^ 31 := by simpa [fitsSigned32] using h
  have word : (BitVec.ofInt 32 v).toInt = v := BitVec.toInt_ofInt_eq_self (by decide) lower upper
  simp only [signed32Bytes, List.cons_append, List.nil_append, decodeInt, signed32, append_extract_bytes, word]

/-- A ToolState is read back from its byte (spec/30_encoding.md R87). -/
@[simp] theorem toolStateOf_toolStateByte (ts : ToolState) : toolStateOf (toolStateByte ts) = ts := by
  obtain ⟨prox, kind⟩ := ts
  cases prox <;> cases kind <;> rfl

/-- A query buffer is read back from its bytes. -/
theorem decodeQbuf_append (code : Byte) (q : QueryBuf) (rest : List Byte) :
    decodeQbuf code (q.toList ++ rest) = .ok (.qryDec q) rest := by
  rw [decodeQbuf, takeBuf_append]

/-- A pen report and a ToolState are read back from their bytes. -/
theorem decodeRaw_append (code : Byte) (raw : ReportBuf) (ts : ToolState) (rest : List Byte) :
    decodeRaw code (raw.toList ++ [toolStateByte ts] ++ rest) = .ok (.penDec raw ts) rest := by
  simp [decodeRaw]

/-- Settles O5: the code selects the reader of the operands, which reads them back. -/
theorem decodeOfEncode : Obligations.DecodeOfEncode := by
  intro i rest wf
  cases i with
  | qryDec q => exact decodeQbuf_append _ q rest
  | penDec raw ts => exact decodeRaw_append _ raw ts rest
  | vcomEnc m => exact decodeInt_append wf 0x42 .vcomEnc rest
  | vcomWrmv v => exact decodeInt_append wf 0x45 .vcomWrmv rest
  | _ => rfl

/-! ### Codes outside the map (R98) -/

/-- A code outside R95's table is illegal, whatever bytes follow it. -/
theorem decode_of_not_mem_codes {code : Byte} (h : code ∉ Laws.CommandFrame.codes) (operands : List Byte) :
    decode (code :: operands) = .bad (.illegalCommand code) := by
  have unlisted : code.toNat ∉ Laws.CommandFrame.codes.map BitVec.toNat := by
    rwa [List.mem_map_of_injective BitVec.toNat_injective]
  simp only [decode]
  split
  case h_20 => rfl
  all_goals next listed => rw [listed] at unlisted; exact absurd (by decide) unlisted

end Sys2Proof

namespace Sys2Proof.Machine

/-- Settles O10: the code 0x20 decodes to `PEN.IRQ`, which no host issues, and every other code outside the host's map
decodes to nothing. -/
theorem illegalCommandRefused : Obligations.IllegalCommandRefused := by
  intro s code operands more outside inbox
  have illegal : ∀ go s, issue go code operands s = .next s.illegal := by
    intro go s
    by_cases edge : code = 0x20
    · subst edge; rfl
    · have unknown : code ∉ Laws.CommandFrame.codes := by simp_all [Laws.CommandFrame.codes]
      rw [issue, decode_of_not_mem_codes unknown]
  obtain inbox | inbox := inbox <;> rw [step_of_inbox inbox] <;> exact illegal _ _

/-! ### The frame of an operation of the power side (spec/30_encoding.md R96) -/

/-- The operation in flight stands at one of its own phases, or it is over and `PWR` no longer busy. -/
def Pwr.Within (own : PwrPhase → Prop) (p : Pwr) : Prop := own p.phase ∨ p.phase = .idle ∧ p.busy = false

/-- What every micro-step at an operation's own phases keeps, the whole operation on an idle `PWR` keeps, and it ends
with `pwr_busy = 0`. -/
theorem Pwr.whole_frame {α : Type} {own : PwrPhase → Prop} {frame : Pwr → α}
    (keep : ∀ p : Pwr, own p.phase → p.micro.1.Within own ∧ frame p.micro.1 = frame p) (going : ¬ own .idle)
    {p : Pwr} {ph : PwrPhase} (idle : p.phase = .idle) (first : own ph) (start : frame (p.start ph) = frame p) :
    frame (p.whole ph) = frame p ∧ (p.whole ph).busy = false := by
  rw [Pwr.whole, Pwr.finish_fst_of_idle idle]
  have micro : ∀ q : Pwr, q.phase ≠ .idle → q.Within own ∧ frame q = frame p →
      q.micro.1.Within own ∧ frame q.micro.1 = frame p := by
    rintro q in_flight ⟨at_own | ⟨ended, -⟩, same⟩
    · exact (keep q at_own).imp_right (·.trans same)
    · exact absurd ended in_flight
  obtain ⟨at_own | ⟨-, busy⟩, same⟩ := Pwr.finish_keeps _ micro (p.start ph) ⟨.inl first, start⟩
  · rw [Pwr.finish_phase] at at_own
    exact absurd at_own going
  · exact ⟨same, busy⟩

/-! ### `RAIL.STAT` -/

/-- The phases of `RAIL.STAT` (spec/42_power_rail_sequencer.md R177). -/
inductive PwrPhase.OfRailStat : PwrPhase → Prop
  | init : OfRailStat .statInit
  | poll : OfRailStat .statPoll
  | count (g : Bool) : OfRailStat (.statCount g)
  | keep (g : Bool) : OfRailStat (.statKeep g)
  | sleep : OfRailStat .statSleep
  | ret (r : Result) : OfRailStat (.ret r)

/-- What `RAIL.STAT` leaves alone: `rail`, the chip, and every port but those of the line and the sleep. -/
def Pwr.railStatFrame (p : Pwr) :=
  (p.rail, p.chip, p.railWrites, p.railQueries, p.vcomReads, p.faultReads, p.vcomWrites, p.overheads)

/-- A micro-step of `RAIL.STAT` goes on with one or ends it, and keeps its frame. -/
theorem Pwr.micro_ofRailStat (p : Pwr) (h : p.phase.OfRailStat) :
    p.micro.1.Within PwrPhase.OfRailStat ∧ p.micro.1.railStatFrame = p.railStatFrame := by
  generalize hp : p.phase = ph at h
  cases h <;> simp only [Pwr.micro, hp]
  case init => exact ⟨.inl .poll, rfl⟩
  case poll =>
    rw [railStatPoll_eq]
    cases p.lineAt 0 with
    | level g => exact ⟨.inl (.count g), rfl⟩
    | err e => exact ⟨.inl (.ret _), rfl⟩
  case count g => exact ⟨.inl (.keep g), rfl⟩
  case keep g =>
    cases g with
    | true => exact ⟨.inl (.ret _), rfl⟩
    | false => exact ⟨.inl .sleep, rfl⟩
  case sleep =>
    rw [railStatSleep_eq, Pwr.statNext]
    split
    · exact ⟨.inl .poll, rfl⟩
    · exact ⟨.inl (.ret _), rfl⟩
  case ret r => exact ⟨.inr ⟨rfl, rfl⟩, rfl⟩

/-! ### `RAIL.EN` -/

/-- The phases of `RAIL.EN`, the forced disable among them (spec/42_power_rail_sequencer.md R161, R166). -/
inductive PwrPhase.OfRailEn : PwrPhase → Prop
  | write : OfRailEn .enWrite
  | rail : OfRailEn .enRail
  | iter : OfRailEn .enIter
  | poll (t : Nat) : OfRailEn (.enPoll t)
  | count (t : Nat) (g : Bool) : OfRailEn (.enCount t g)
  | keep (t : Nat) (g : Bool) : OfRailEn (.enKeep t g)
  | sleep (t : Nat) : OfRailEn (.enSleep t)
  | good (t : Nat) : OfRailEn (.enGood t)
  | report (t : Nat) : OfRailEn (.enReport t)
  | abort (e : ErrVal) : OfRailEn (.enAbort e)
  | fail (t : Nat) : OfRailEn (.enFail t)
  | forcedWrite (t : Nat) : OfRailEn (.forcedWrite t)
  | forcedSleep (t : Nat) : OfRailEn (.forcedSleep t)
  | forcedRail (t : Nat) : OfRailEn (.forcedRail t)
  | timeout (t : Nat) : OfRailEn (.enTimeout t)
  | ret (r : Result) : OfRailEn (.ret r)

/-- What `RAIL.EN` leaves alone: the chip but its rail bit, and the ports of the registers and of the rail query. -/
def Pwr.railEnFrame (p : Pwr) :=
  (p.chip.vcomL, p.chip.vcomH, p.chip.fault, p.railQueries, p.vcomReads, p.faultReads, p.vcomWrites)

/-- A micro-step of `RAIL.EN` goes on with one or ends it, and keeps its frame. -/
theorem Pwr.micro_ofRailEn (p : Pwr) (h : p.phase.OfRailEn) :
    p.micro.1.Within PwrPhase.OfRailEn ∧ p.micro.1.railEnFrame = p.railEnFrame := by
  generalize hp : p.phase = ph at h
  cases h <;> simp only [Pwr.micro, hp]
  case write =>
    rw [railEnWrite_eq]
    cases p.nextRailWrite with
    | ok => exact ⟨.inl .rail, rfl⟩
    | err e took => exact ⟨.inl (.ret _), rfl⟩
  case rail => exact ⟨.inl .iter, rfl⟩
  case iter => exact ⟨.inl (.poll 0), rfl⟩
  case poll t =>
    rw [railEnPoll_eq]
    cases p.lineAt 0 with
    | level g => exact ⟨.inl (.count t g), rfl⟩
    | err e => exact ⟨.inl (.abort e), rfl⟩
  case count t g => exact ⟨.inl (.keep t g), rfl⟩
  case keep t g =>
    cases g with
    | true => exact ⟨.inl (.good t), rfl⟩
    | false => exact ⟨.inl (.sleep t), rfl⟩
  case sleep t =>
    rw [railEnSleep_eq, Pwr.enNext]
    split
    · exact ⟨.inl (.poll _), rfl⟩
    · exact ⟨.inl (.fail _), rfl⟩
  case good t => exact ⟨.inl (.report t), rfl⟩
  case fail t => exact ⟨.inl (.forcedWrite t), rfl⟩
  case forcedWrite t => exact ⟨.inl (.forcedSleep t), rfl⟩
  case forcedSleep t => exact ⟨.inl (.forcedRail t), rfl⟩
  case forcedRail t => exact ⟨.inl (.timeout t), rfl⟩
  case report | abort | timeout => exact ⟨.inl (.ret _), rfl⟩
  case ret r => exact ⟨.inr ⟨rfl, rfl⟩, rfl⟩

/-- Settles O40: no micro-step of `RAIL.EN` or `RAIL.STAT` touches what the frame of its operation names. -/
theorem pollingFrame : Obligations.PollingFrame := by
  intro s t idle
  have statFrame := (Pwr.whole_frame Pwr.micro_ofRailStat nofun idle .init rfl).1
  have enFrame := (Pwr.whole_frame Pwr.micro_ofRailEn nofun idle .write rfl).1
  simp only [Pwr.railStatFrame, Pwr.railEnFrame, Prod.mk.injEq] at statFrame enFrame
  obtain ⟨rail, chip, railWrites, railQueries, vcomReads, faultReads, vcomWrites, overheads⟩ := statFrame
  refine ⟨?_, ?_⟩
  · rintro (h | h) <;> cases h
    · exact ⟨rfl, rfl, enFrame⟩
    · exact ⟨rfl, rfl, congrArg Chip.vcomL chip, congrArg Chip.vcomH chip, congrArg Chip.fault chip, railQueries,
        vcomReads, faultReads, vcomWrites⟩
  · intro h
    cases h
    exact ⟨rail, chip, railWrites, overheads⟩

/-! ### `VCOM.RDMV`, `VCOM.RDUV` and `VCOM.WRMV` -/

/-- The phases of the operations on the VCOM registers (spec/43_vcom_codec.md R205 to R207). -/
inductive PwrPhase.OfVcom : PwrPhase → Prop
  | rdmvLow : OfVcom .rdmvLow
  | rdmvHigh (low : Byte) : OfVcom (.rdmvHigh low)
  | rduvLow : OfVcom .rduvLow
  | rduvHigh (low : Byte) : OfVcom (.rduvHigh low)
  | wrmvLow (low high : Byte) : OfVcom (.wrmvLow low high)
  | wrmvHigh (high : Byte) : OfVcom (.wrmvHigh high)
  | ret (r : Result) : OfVcom (.ret r)

/-- What they leave alone: the sequencer, the rail bit, the fault register and the line. -/
def Pwr.vcomFrame (p : Pwr) :=
  (p.rail, p.iter, p.pgLast, p.chip.railOn, p.chip.fault, p.pgood)

/-- `VCOM.WRMV` starts with its low write, or with its end outside the range (R207). -/
theorem PwrPhase.ofVcom_wrmvFirst (v : Int) : (wrmvFirst v).OfVcom := by
  unfold wrmvFirst
  split
  · exact .ret _
  · exact .wrmvLow _ _

/-- A micro-step of an operation on the VCOM registers goes on with one or ends it, and keeps its frame. -/
theorem Pwr.micro_ofVcom (p : Pwr) (h : p.phase.OfVcom) :
    p.micro.1.Within PwrPhase.OfVcom ∧ p.micro.1.vcomFrame = p.vcomFrame := by
  generalize hp : p.phase = ph at h
  cases h <;> simp only [Pwr.micro, hp]
  case rdmvLow =>
    rw [vcomRdmvLow_eq]
    cases p.nextVcomRead with
    | ok => exact ⟨.inl (.rdmvHigh _), rfl⟩
    | err e => exact ⟨.inl (.ret _), rfl⟩
  case rduvLow =>
    rw [vcomRduvLow_eq]
    cases p.nextVcomRead with
    | ok => exact ⟨.inl (.rduvHigh _), rfl⟩
    | err e => exact ⟨.inl (.ret _), rfl⟩
  case wrmvLow low high =>
    rw [vcomWrmvLow_eq]
    cases p.nextVcomWrite with
    | ok => exact ⟨.inl (.wrmvHigh high), rfl⟩
    | err e took => exact ⟨.inl (.ret _), rfl⟩
  case rdmvHigh => rw [vcomRdmvHigh_eq]; cases p.nextVcomRead <;> exact ⟨.inl (.ret _), rfl⟩
  case rduvHigh => rw [vcomRduvHigh_eq]; cases p.nextVcomRead <;> exact ⟨.inl (.ret _), rfl⟩
  case wrmvHigh => rw [vcomWrmvHigh_eq]; cases p.nextVcomWrite <;> exact ⟨.inl (.ret _), rfl⟩
  case ret r => exact ⟨.inr ⟨rfl, rfl⟩, rfl⟩

/-- Settles O56: no micro-step at a phase of these operations touches what `Pwr.vcomFrame` names. -/
theorem vcomFrame : Obligations.VcomFrame := by
  intro s t v idle h
  have run : ∃ ph : PwrPhase, ph.OfVcom ∧ t = s.runPwr ph := by
    obtain h | h | h := h <;> cases h
    · exact ⟨_, .rdmvLow, rfl⟩
    · exact ⟨_, .rduvLow, rfl⟩
    · exact ⟨_, PwrPhase.ofVcom_wrmvFirst v, rfl⟩
  obtain ⟨ph, first, rfl⟩ := run
  obtain ⟨frame, busy⟩ := Pwr.whole_frame Pwr.micro_ofVcom nofun idle first rfl
  simp only [Pwr.vcomFrame, Prod.mk.injEq] at frame
  obtain ⟨rail, iter, pgLast, railOn, fault, pgood⟩ := frame
  exact ⟨rfl, rfl, rail, iter, pgLast, railOn, fault, pgood, busy⟩

end Sys2Proof.Machine
end

section
/-! SUPPORT. The proofs of the statements of spec/40_query_report.md: the decoder of the query report and its synthetic
encoder (R111, R119), and `QRY.XFER` over an idle `DIG` (R112 to R117). -/

namespace Sys2Proof.Machine

/-! ### `QRY.DEC` (R111, R119) -/

/-- Settles O23: the eight fields of `qryDecode`, the assembled ones as numbers (`le16_toNat`). -/
theorem qryDecFields : Obligations.QryDecFields := by
  intro s q
  refine ⟨rfl, qryDecode q, fun idle => ?_, rfl, le16_toNat q 3 _, le16_toNat q 5 _, le16_toNat q 11 _,
    le16_toNat q 13 _, rfl, rfl, le16_toNat q 17 _, le16_toNat q 19 _⟩
  exact congrArg Host.Outcome.next (State.answerDig_idle _ idle)

/-- A field whose two bytes stand at offset `o`, the less significant first, is read back. -/
theorem le16_of_bytes {n : Nat} {buf : Vector Byte n} {o : Nat} {h : o + 1 < n} {v : Half}
    (low : buf[o] = v.setWidth 8) (high : buf[o + 1] = (v >>> 8).setWidth 8) : le16 buf o h = v := by
  rw [le16, low, high, assemble_split]

/-- Settles O24: each 16-bit field is read back from its two bytes (`le16_of_bytes`), the rest byte by byte. -/
theorem qryRoundTrip : Obligations.QryRoundTrip := by
  intro lim fill
  constructor
  · obtain ⟨xMax, yMax, pressureMax, fwVersion, distanceMax, distancePhysicalMax, tiltXMax, tiltYMax⟩ := lim
    simp only [qryDecode, Limits.mk.injEq]
    exact ⟨le16_of_bytes rfl rfl, le16_of_bytes rfl rfl, le16_of_bytes rfl rfl, le16_of_bytes rfl rfl, rfl, rfl,
      le16_of_bytes rfl rfl, le16_of_bytes rfl rfl⟩
  · ext i hi
    interval_cases i <;> rfl

/-! ### `QRY.XFER` (R112 to R117) -/

/-- Over an idle `DIG` the operation is the run from its first micro-step. -/
theorem exec_qryXfer_idle {s : State} (idle : s.dig.phase = .idle) :
    exec .qryXfer s = .next (s.putDig (s.dig.start (qryFirst s.dig)).finish) := by
  rw [exec, execQryXfer, State.settleDig_idle idle, State.runDig_idle _ idle]

/-- A full latch ends the operation at its start (R117). -/
theorem qryFirst_latched {d : Dig} (latched : d.caps.valid = true) : qryFirst d = .ret (some (.error .sequence)) := by
  rw [qryFirst, if_pos latched]

/-- Settles O27: over a full latch the first micro-step after the start is the last. -/
theorem qryXferRefusedWhenLatched : Obligations.QryXferRefusedWhenLatched := by
  intro s idle latched
  rw [exec_qryXfer_idle idle, qryFirst_latched latched, Dig.finish_ret rfl, Dig.leave, ← idle]
  rfl

/-- What the operation returns for the answer of its transfer (R115, R116). -/
def qryResult (a : TransferAnswer) : Result :=
  match a with
  | .err e => .error (.transport e)
  | .short _ => .error .protocol
  | .full rx => .limits (qryDecode rx)

/-- What the answer of the transfer makes of the latch: a completed one fills it, any other leaves it (R115, R116). -/
def qryCaps (a : TransferAnswer) (caps : Caps) : Caps :=
  match a with
  | .err _ | .short _ => caps
  | .full rx => { valid := true, limits := qryDecode rx }

/-- The half as the transfer finds it: busy, and with a reset control after the pulse (R112, R113). -/
def Dig.atQryTransfer (d : Dig) : Dig :=
  { d with
    busy := true
    phase := .qryTransfer
    trace := d.trace ++ if Config.hasReset then [.resetPulse] else [] }

/-- Over an empty latch the run comes to the transfer, through the pulse if there is a reset control (R113). -/
theorem Dig.finish_qryFirst {d : Dig} (empty : d.caps.valid = false) :
    (d.start (qryFirst d)).finish = d.atQryTransfer.finish := by
  by_cases reset : Config.hasReset = true
  · have first : qryFirst d = .qryPulse := by simp [qryFirst, empty, reset]
    have pulsed : qryPulse (d.start .qryPulse) = d.atQryTransfer := by simp only [Dig.atQryTransfer, reset]; rfl
    rw [first, Dig.finish_of_goto (by simp) rfl, pulsed]
  · have first : qryFirst d = .qryTransfer := by simp [qryFirst, empty, reset]
    have unpulsed : d.start .qryTransfer = d.atQryTransfer := by simp [Dig.atQryTransfer, Dig.start, reset]
    rw [first, unpulsed]

/-- From the transfer the run ends by what the environment answers: an error at once, a completed one after the latch
(R114 to R116). -/
theorem Dig.finish_qryTransfer {d : Dig} (here : d.phase = .qryTransfer) :
    d.finish = Dig.leave (some (qryResult d.nextTransfer))
      { (d.busTransfer qryMessages).2 with caps := qryCaps d.nextTransfer d.caps } := by
  have going : d.phase ≠ .idle := by simp [here]
  have micro : d.micro = (Machine.qryTransfer d, none) := by simp only [Dig.micro, here]
  rw [qryTransfer_eq] at micro
  cases answer : d.nextTransfer <;> rw [answer] at micro
  case err e => exact Dig.finish_of_complete going micro
  case short k => exact Dig.finish_of_complete going micro
  case full rx => exact (Dig.finish_of_goto going micro).trans (Dig.finish_of_complete nofun rfl)

/-- The whole operation over an idle `DIG` and an empty latch, for every answer of the transfer. -/
theorem exec_qryXfer_empty {s : State} (idle : s.dig.phase = .idle) (empty : s.dig.caps.valid = false) :
    exec .qryXfer s = .next
      { s with
        dig := { s.dig with
          caps := qryCaps s.dig.nextTransfer s.dig.caps
          busy := false
          transfers := (s.dig.transfers.next Config.freeTransfer).2
          trace := s.dig.trace ++ (if Config.hasReset then [.resetPulse] else []) ++
            [.busTransfer qryMessages s.dig.nextTransfer] }
        results := s.results ++ [qryResult s.dig.nextTransfer] } := by
  rw [exec_qryXfer_idle idle, Dig.finish_qryFirst empty, Dig.finish_qryTransfer rfl, Dig.leave, Dig.busTransfer_eq,
    ← idle]
  rfl

/-- Settles O25: `exec_qryXfer_empty` for a completed transfer. -/
theorem qryXferLatches : Obligations.QryXferLatches := by
  intro s rx idle empty answer
  rw [exec_qryXfer_empty idle empty, answer]
  rfl

/-- Settles O26: `exec_qryXfer_empty` for the two answers that leave the latch as it is. -/
theorem qryXferErrors : Obligations.QryXferErrors := by
  intro s idle empty
  refine ⟨fun e answer => ?_, fun k answer => ?_⟩
  all_goals
    rw [exec_qryXfer_empty idle empty, answer]
    exact ⟨_, rfl, rfl, rfl, rfl, rfl, rfl, rfl, rfl⟩

end Sys2Proof.Machine
end

section
/-! SUPPORT. The proofs of the statements of spec/41_pen_report.md: the decoder of the pen report (R130 to R143), the
service of an edge (R131 to R140), and `IRQ.DIS` (R147). -/

namespace Sys2Proof.Machine

/-! ### What the decoder reads from the report (R130, R134 to R138) -/

theorem statusTouch_eq (status : Byte) : statusTouch status = status.getLsbD 0 := bitSet_touch status
theorem statusButton1_eq (status : Byte) : statusButton1 status = status.getLsbD 1 := bitSet_button1 status
theorem statusEraser_eq (status : Byte) : statusEraser status = status.getLsbD 2 := bitSet_eraser status
theorem statusButton2_eq (status : Byte) : statusButton2 status = status.getLsbD 4 := bitSet_button2 status
theorem statusProximity_eq (status : Byte) : statusProximity status = status.getLsbD 5 := bitSet_proximity status

theorem discriminator_eq (status : Byte) :
    discriminator status = if status.getLsbD 2 || status.getLsbD 3 then .rubber else .pen := by
  rw [discriminator, bitSet_discriminator]

theorem latchKind_of_prox {ts : ToolState} (prox : ts.prox = true) (status : Byte) : latchKind ts status = ts.kind :=
  if_pos prox

theorem latchKind_of_not_prox {ts : ToolState} (prox : ts.prox = false) (status : Byte) :
    latchKind ts status = discriminator status := by
  rw [latchKind, prox, if_neg Bool.false_ne_true]

/-- Two status bytes that agree on bits 0 to 5 latch the same ToolState. -/
theorem latchTool_congr {status status' : Byte} (bits : ∀ b ≤ 5, status.getLsbD b = status'.getLsbD b)
    (ts : ToolState) : latchTool ts status = latchTool ts status' := by
  simp only [latchTool, latchKind, statusProximity_eq, discriminator_eq, bits 2, bits 3, bits 5, Nat.reduceLeDiff]

/-- A signed field is its two bytes, the less significant first, read in two's complement (R89). -/
theorem s16_append {n : Nat} (buf : Vector Byte n) (o : Nat) (h : o + 1 < n) :
    s16 buf o h = (buf[o + 1] ++ buf[o]).toInt := by
  rw [s16, sext_toInt, le16_append]

/-- A 16-bit field depends on its two bytes only. -/
theorem le16_congr {n : Nat} {buf buf' : Vector Byte n} {o : Nat} {h : o + 1 < n} (low : buf[o] = buf'[o])
    (high : buf[o + 1] = buf'[o + 1]) : le16 buf o h = le16 buf' o h := by
  rw [le16, le16, low, high]

/-- Settles O28: the sample and the ToolState are `penDecode`'s, the 16-bit fields as numbers (`le16_toNat`,
`s16_append`). -/
theorem penDecFields : Obligations.PenDecFields := by
  intro s raw ts
  refine ⟨rfl, (penDecode raw ts).1, (penDecode raw ts).2, fun idle => ?_, rfl,
    statusTouch_eq _, statusButton1_eq _, statusEraser_eq _, statusButton2_eq _, statusProximity_eq _,
    le16_toNat raw 4 _, le16_toNat raw 6 _, le16_toNat raw 8 _, rfl, s16_append raw 11 _, s16_append raw 13 _,
    rfl, statusProximity_eq _, fun prox => latchKind_of_prox prox _,
    fun prox => (latchKind_of_not_prox prox _).trans (discriminator_eq _)⟩
  exact congrArg Host.Outcome.next (State.answerDig_idle _ idle)

/-- Settles O29: each field is a function of status bits 0 to 5 or of bytes 4 to 14. -/
theorem penDecIgnores : Obligations.PenDecIgnores := by
  intro raw raw' ts bytes bits
  have tool : latchTool ts raw[3] = latchTool ts raw'[3] := latchTool_congr bits ts
  have kind : latchKind ts raw[3] = latchKind ts raw'[3] := congrArg ToolState.kind tool
  have field : ∀ (o : Nat) (h : o + 1 < 22), 4 ≤ o → o ≤ 13 → le16 raw o h = le16 raw' o h :=
    fun o h from4 to13 => le16_congr (bytes o (by omega) from4 (by omega)) (bytes (o + 1) h (by omega) (by omega))
  simp only [penDecode, penSample, u8, s16, tool, kind, field, bytes, bits, statusTouch_eq, statusButton1_eq,
    statusEraser_eq, statusButton2_eq, statusProximity_eq, Nat.reduceLeDiff]

/-! ### `PEN.IRQ` with an edge to serve (R131 to R133, R140) -/

/-- What the answer of the report read makes of `tool` (R131, R133). -/
def penTool (a : RecvAnswer) (ts : ToolState) : ToolState :=
  match a with
  | .err _ => ts
  | .ok raw => (penDecode raw ts).2

/-- The events the answer of the report read sends to the sink (R133, R140). -/
def penEvents (a : RecvAnswer) (ts : ToolState) : List SinkEvent :=
  match a with
  | .err _ => []
  | .ok raw => sampleEvents (penDecode raw ts).1

/-- The emissions append their events in order, and the operation ends with no result. -/
theorem Dig.finish_penNext (events : List SinkEvent) (d : Dig) :
    (d.goto (penNext events)).finish = Dig.leave none { d with sink := d.sink ++ events } := by
  induction events generalizing d with
  | nil => rw [List.append_nil]; exact Dig.finish_ret rfl
  | cons e rest ih =>
    have emitted : (d.goto (penNext (e :: rest))).finish = ((d.emit e).goto (penNext rest)).finish :=
      Dig.finish_of_goto nofun rfl
    rw [emitted, ih, Dig.emit_sink, List.append_assoc]
    rfl

/-- A read report is decoded against `tool`, which is updated, and its batch emitted (R131, R140). -/
theorem Dig.finish_penDecode {d : Dig} {raw : ReportBuf} (here : d.phase = .penDecode raw) :
    d.finish = Dig.leave none { d with
      tool := (penDecode raw d.tool).2
      sink := d.sink ++ sampleEvents (penDecode raw d.tool).1 } := by
  have micro : d.micro = (penLatch raw d, none) := by simp only [Dig.micro, here]
  exact (Dig.finish_of_goto (by simp [here]) micro).trans (Dig.finish_penNext _ _)

/-- From the report read the run ends by what the environment answers: an error at once, a report after `tool` is
updated and the batch emitted. -/
theorem Dig.finish_penRecv {d : Dig} (here : d.phase = .penRecv) :
    d.finish = Dig.leave none { d.busRecv.2 with
      tool := penTool d.nextRecv d.tool
      sink := d.sink ++ penEvents d.nextRecv d.tool } := by
  have going : d.phase ≠ .idle := by simp [here]
  have micro : d.micro = (Machine.penRecv d, none) := by simp only [Dig.micro, here]
  rw [penRecv_eq] at micro
  cases answer : d.nextRecv <;> rw [answer] at micro
  case err e => rw [penEvents, List.append_nil]; exact Dig.finish_of_complete going micro
  case ok raw => exact (Dig.finish_of_goto going micro).trans (Dig.finish_penDecode rfl)

/-- The whole service over an idle `DIG`, for every answer of the read: the edge is consumed and the host gets no
result. -/
theorem exec_penIrq_ready {s : State} (idle : s.dig.phase = .idle) (ready : s.edgeReady = true) :
    exec .penIrq s = .next
      { s with
        dig := { s.dig with
          tool := penTool s.dig.nextRecv s.dig.tool
          irqPend := false
          busy := false
          reportReads := (s.dig.reportReads.next Config.freeRecv).2
          trace := s.dig.trace ++ [.busRecv Config.digitizerAddr 22 s.dig.nextRecv]
          sink := s.dig.sink ++ penEvents s.dig.nextRecv s.dig.tool } } := by
  have served : s.launchPen.settleDig =
      s.putDig (Dig.start .penRecv { s.dig with irqPend := false }).finish :=
    State.runDig_idle (s := { s with dig := { s.dig with irqPend := false } }) .penRecv idle
  rw [exec, execPenIrq, State.settleDig_idle idle, if_pos ready, served, Dig.finish_penRecv rfl, Dig.busRecv_eq,
    State.putDig, Dig.leave_result, Option.toList_none, List.append_nil, Dig.leave, ← idle]
  rfl

/-- The start condition of the service is the two bits (R145). -/
theorem State.edgeReady_of {s : State} (pend : s.dig.irqPend = true) (enabled : s.dig.irqEn = true) :
    s.edgeReady = true := by
  rw [State.edgeReady, pend, enabled]; rfl

/-- Settles O30: `exec_penIrq_ready` for a successful read. -/
theorem penIrqEmitsBatch : Obligations.PenIrqEmitsBatch := by
  intro s raw idle pend enabled answer
  refine ⟨_, _, rfl, ?_⟩
  rw [exec_penIrq_ready idle (State.edgeReady_of pend enabled), answer]
  rfl

/-- Settles O31: `exec_penIrq_ready` for a failing read, which sends nothing to the sink. -/
theorem penIrqReadErrorSwallowed : Obligations.PenIrqReadErrorSwallowed := by
  intro s e idle pend enabled answer
  rw [exec_penIrq_ready idle (State.edgeReady_of pend enabled), answer, penEvents, List.append_nil]
  rfl

/-! ### The gate of the interrupt line (R146, R147) -/

/-- The gate is written in one micro-step, after which the operation ends with `Ok`. -/
theorem Dig.finish_irqGate {on : Bool} {d : Dig} (here : d.phase = .irqGate on) :
    d.finish = (if on then d.openGate else d.closeGate).leave (some .ok) :=
  Dig.finish_of_complete (by simp [here]) (by simp only [Dig.micro, here, irqGate])

/-- Settles O34: over an idle `DIG` the operation is the write of the closed gate. -/
theorem irqDisEffect : Obligations.IrqDisEffect := by
  intro s idle
  rw [exec, execIrqDis, State.runDig_idle _ idle, Dig.finish_irqGate rfl, if_neg Bool.false_ne_true, Dig.leave,
    ← idle]
  rfl

end Sys2Proof.Machine
end

section
/-! SUPPORT. The proofs of the statements of spec/42_power_rail_sequencer.md: the RAIL operations over an idle `PWR`
(R161 to R178), each as one equation for its run to the end, and the RailState transitions (R168). -/

namespace Sys2Proof.Machine

/-! ### A whole operation over an idle `PWR` -/

/-- Where the run from the start ends with `r` and leaves `q`, the operation leaves `q` and returns `r`. -/
theorem next_runPwr_of_finish {s : State} {ph : PwrPhase} {q : Pwr} {r : Result} (idle : s.pwr.phase = .idle)
    (run : (s.pwr.start ph).finish = q.leave r) :
    Host.Outcome.next (s.runPwr ph) =
      (.next { s with pwr := (q.leave r).1, results := s.results ++ [r] } : Host.Outcome State Fault Refusal) := by
  rw [State.runPwr_idle ph idle, run]
  rfl

/-! ### `RAIL.DIS` and `RAIL.ISEN` (R170, R175) -/

/-- The body of a disable, explicit or forced: the write and the ramp sleep, whatever the write answers (R166, R171). -/
theorem Pwr.railWrite_rampSleep (p : Pwr) :
    (p.railWrite false).2.rampSleep.2 = { p with
      chip := { p.chip with railOn := writeLeaves p.nextRailWrite p.chip.railOn false }
      railWrites := (p.railWrites.next Config.freeRailWrite).2
      sleeps := (p.sleeps.next Config.freeSleep).2
      trace := p.trace ++ [.railWrite false p.nextRailWrite, .sleep 30000 35000 (p.sleepAt 30000 35000 0)] } := by
  rw [Pwr.rampSleep, Pwr.sleep_eq, Pwr.railWrite_eq, List.append_cons p.trace (.railWrite false p.nextRailWrite) [_]]
  rfl

/-- What `RAIL.DIS` returns for the answer of its write (R172). -/
def railDisResult (w : WriteAnswer) : Result :=
  match w with
  | .ok => .ok
  | .err e _ => .error (.transport e)

/-- What the answer of the disable write makes of `rail` (R172). -/
def railAfterDis (w : WriteAnswer) (rail : RailState) : RailState :=
  match w with
  | .ok => .disabled
  | .err _ _ => rail

/-- The disable write and the ramp sleep come whatever the write answers, and the answer decides the rest. -/
theorem Pwr.finish_disWrite {p : Pwr} (here : p.phase = .disWrite) :
    p.finish = Pwr.leave (railDisResult p.nextRailWrite)
      { (p.railWrite false).2.rampSleep.2 with rail := railAfterDis p.nextRailWrite p.rail } := by
  have write : p.micro = ((p.railWrite false).2.goto (.disSleep p.nextRailWrite), none) := by
    simp only [Pwr.micro, here, railDisWrite_eq]
  refine (Pwr.finish_of_goto (by simp [here]) write).trans ?_
  cases p.nextRailWrite with
  | ok => exact (Pwr.finish_of_goto (by simp) rfl).trans (Pwr.finish_of_complete (by simp [railDisSleep]) rfl)
  | err e took => exact Pwr.finish_of_complete (by simp) rfl

/-- The whole of `RAIL.DIS` over an idle `PWR`, for every answer of its write. -/
theorem exec_railDis_idle {s : State} (idle : s.pwr.phase = .idle) :
    exec .railDis s = .next
      { s with
        pwr := { s.pwr with
          rail := railAfterDis s.pwr.nextRailWrite s.pwr.rail
          busy := false
          chip := { s.pwr.chip with railOn := writeLeaves s.pwr.nextRailWrite s.pwr.chip.railOn false }
          railWrites := (s.pwr.railWrites.next Config.freeRailWrite).2
          sleeps := (s.pwr.sleeps.next Config.freeSleep).2
          trace := s.pwr.trace ++
            [.railWrite false s.pwr.nextRailWrite, .sleep 30000 35000 (s.pwr.sleepAt 30000 35000 0)] }
        results := s.results ++ [railDisResult s.pwr.nextRailWrite] } := by
  rw [exec, execRailDis, next_runPwr_of_finish idle (Pwr.finish_disWrite rfl), Pwr.railWrite_rampSleep,
    Pwr.leave, ← idle]
  rfl

/-- Settles O41: `exec_railDis_idle` for a successful write. -/
theorem railDisSucceeds : Obligations.RailDisSucceeds := by
  intro s idle ok
  rw [exec_railDis_idle idle, ok]
  rfl

/-- Settles O42: `exec_railDis_idle` for a failing write. -/
theorem railDisWriteError : Obligations.RailDisWriteError := by
  intro s e took idle err
  rw [exec_railDis_idle idle, err]
  rfl

/-- What `RAIL.ISEN` returns for the answer of its query while the chip's bit is `on` (R175). -/
def railIsenResult (a : ReadAnswer) (on : Bool) : Result :=
  match a with
  | .ok => .bit on
  | .err e => .error (.transport e)

/-- The query is the one micro-step of `RAIL.ISEN` between its start and its last. -/
theorem Pwr.finish_isenQuery {p : Pwr} (here : p.phase = .isenQuery) :
    p.finish = p.railQuery.2.leave (railIsenResult p.nextRailQuery p.chip.railOn) := by
  have query : p.micro = (railIsenQuery p, none) := by simp only [Pwr.micro, here]
  rw [railIsenQuery_eq] at query
  refine Pwr.finish_of_complete (by simp [here]) (query.trans ?_)
  cases p.nextRailQuery <;> rfl

/-- Settles O44: over an idle `PWR` the operation is its query. -/
theorem railIsenEffect : Obligations.RailIsenEffect := by
  refine ⟨rfl, fun s idle => ?_⟩
  rw [exec, execRailIsen, next_runPwr_of_finish idle (Pwr.finish_isenQuery rfl), Pwr.railQuery_eq, Pwr.leave, ← idle]
  rfl

/-! ### `RAIL.EN` before the poll loop (R162) -/

/-- A failing enable write ends the operation at once. -/
theorem Pwr.finish_enWrite_err {p : Pwr} {e : ErrVal} {took : Bool} (here : p.phase = .enWrite)
    (err : p.nextRailWrite = .err e took) : p.finish = (p.railWrite true).2.leave (.error (.transport e)) :=
  Pwr.finish_of_complete (by simp [here]) (by simp only [Pwr.micro, here, railEnWrite_eq, err]; rfl)

/-- Settles O39: the operation is its failing write. -/
theorem railEnWriteError : Obligations.RailEnWriteError := by
  intro s e took idle err
  have err : (s.pwr.start .enWrite).nextRailWrite = .err e took := err
  rw [exec, execRailEn, next_runPwr_of_finish idle (Pwr.finish_enWrite_err rfl err), Pwr.railWrite_eq, err, Pwr.leave,
    ← idle]
  rfl

/-- The half as the poll loop of `RAIL.EN` finds it, after an enable write that answered ok (R161). -/
def Pwr.atEnPoll (p : Pwr) : Pwr :=
  { p with
    rail := .enabling
    iter := 0
    busy := true
    chip := { p.chip with railOn := true }
    phase := .enPoll 0
    railWrites := (p.railWrites.next Config.freeRailWrite).2
    trace := p.trace ++ [.railWrite true .ok] }

/-- A successful enable write brings the run to the poll loop. -/
theorem Pwr.finish_enWrite_ok {p : Pwr} (ok : p.nextRailWrite = .ok) :
    (p.start .enWrite).finish = p.atEnPoll.finish := by
  have ok : (p.start .enWrite).nextRailWrite = .ok := ok
  have write : (p.start .enWrite).micro = (((p.start .enWrite).railWrite true).2.goto .enRail, none) := by
    simp only [Pwr.micro, Pwr.start_phase, railEnWrite_eq, ok]
  rw [Pwr.finish_of_goto (by simp) write, Pwr.railWrite_eq, ok]
  exact (Pwr.finish_of_goto (by simp) rfl).trans (Pwr.finish_of_goto (by simp) rfl)

/-! ### The poll loop from its start (R163, R177) -/

/-- The poll sleeps to come are a function of what the sleeps answer. -/
theorem Pwr.pollTime_congr {p q : Pwr} (sleeps : q.sleeps = p.sleeps) (k : Nat) : q.pollTime k = p.pollTime k := by
  induction k with
  | zero => rfl
  | succ k ih => rw [Pwr.pollTime, Pwr.pollTime, ih, Pwr.sleepAt, Pwr.sleepAt, sleeps]

/-- The poll iterations to come are a function of what the line and the sleeps answer. -/
theorem Pwr.pollTrace_congr {p q : Pwr} (lineReads : q.lineReads = p.lineReads) (sleeps : q.sleeps = p.sleeps)
    (k : Nat) : q.pollTrace k = p.pollTrace k := by
  induction k with
  | zero => rfl
  | succ k ih =>
    rw [Pwr.pollTrace, Pwr.pollTrace, ih, Pwr.sleepAt, Pwr.sleepAt, Pwr.lineAt, Pwr.lineAt, lineReads, sleeps]

/-- From a loop's start `p₀`, with no read counted and with the line and the sleeps answering as for `p`: how many reads
are counted, what the next one answers, and the trace. -/
theorem Polled.of_start {p p₀ q : Pwr} {k : Nat} (h : Polled p₀ q k) (iter : p₀.iter = 0)
    (lineReads : p₀.lineReads = p.lineReads) (sleeps : p₀.sleeps = p.sleeps) :
    q.iter.toNat = k ∧ q.lineAt 0 = p.lineAt k ∧ q.trace = p₀.trace ++ p.pollTrace k := by
  refine ⟨?_, ?_, ?_⟩
  · rw [h.iter, iter]; exact Nat.zero_add k
  · rw [h.lineAt, Pwr.lineAt, lineReads]; rfl
  · rw [h.trace, Pwr.pollTrace_congr lineReads sleeps]

/-- After a successful enable write and `k` reads of 0 the run of `RAIL.EN` stands at the loop test. -/
theorem Pwr.finish_railEn_polled {p : Pwr} {k : Nat} (ok : p.nextRailWrite = .ok) (most : k ≤ 500)
    (zeros : ∀ j, j < k → p.lineAt j = .level false) :
    ∃ q : Pwr, (p.start .enWrite).finish = q.finish ∧ q.phase = q.enNext (p.pollTime k) ∧ Polled p.atEnPoll q k := by
  have first : p.atEnPoll.phase = p.atEnPoll.enNext 0 := rfl
  obtain ⟨q, run, here, polled⟩ := enPoll_many first k ((Nat.zero_add k).trans_le most) zeros
  rw [Nat.zero_add, Pwr.pollTime_congr (q := p.atEnPoll) (p := p) rfl] at here
  exact ⟨q, (Pwr.finish_enWrite_ok ok).trans run, here, polled⟩

/-- The half as the poll loop of `RAIL.STAT` finds it (R177). -/
def Pwr.atStatPoll (p : Pwr) : Pwr :=
  { p with iter := 0, busy := true, phase := .statPoll }

/-- After `k` reads of 0 the run of `RAIL.STAT` stands at the loop test. -/
theorem Pwr.finish_railStat_polled {p : Pwr} {k : Nat} (most : k ≤ 500)
    (zeros : ∀ j, j < k → p.lineAt j = .level false) :
    ∃ q : Pwr, (p.start .statInit).finish = q.finish ∧ q.phase = q.statNext ∧ Polled p.atStatPoll q k := by
  have first : p.atStatPoll.phase = p.atStatPoll.statNext := rfl
  obtain ⟨q, run, here, polled⟩ := statPoll_many first k ((Nat.zero_add k).trans_le most) zeros
  exact ⟨q, (Pwr.finish_of_goto (by simp) rfl).trans run, here, polled⟩

/-- The loop test of `RAIL.EN` goes on below 500 reads (R163). -/
theorem Pwr.enNext_below {p : Pwr} (t : Nat) (below : p.iter.toNat < 500) : p.enNext t = .enPoll t := if_pos below

/-- The loop test of `RAIL.EN` ends the loop after 500 reads (R166). -/
theorem Pwr.enNext_exhausted {p : Pwr} (t : Nat) (all : p.iter.toNat = 500) : p.enNext t = .enFail t :=
  if_neg all.not_lt

/-- The loop test of `RAIL.STAT` goes on below 500 reads (R177). -/
theorem Pwr.statNext_below {p : Pwr} (below : p.iter.toNat < 500) : p.statNext = .statPoll := if_pos below

/-- After 500 reads `RAIL.STAT` returns the last value observed (R177). -/
theorem Pwr.statNext_exhausted {p : Pwr} (all : p.iter.toNat = 500) : p.statNext = .ret (.bit p.pgLast) :=
  if_neg all.not_lt

/-! ### The exits of the poll loops (R164 to R167, R177, R178) -/

/-- A read of the line appends itself to the trace. -/
theorem Pwr.gpioRead_trace_of {p : Pwr} {a : LineAnswer} (read : p.lineAt 0 = a) :
    p.gpioRead.2.trace = p.trace ++ [.gpioRead a] := by
  rw [Pwr.gpioRead_eq, read]

/-- A read of 1 is counted and kept, and `RAIL.EN` ends with success (R165). -/
theorem Pwr.finish_enPoll_good {p : Pwr} {t : Nat} (here : p.phase = .enPoll t) (good : p.lineAt 0 = .level true) :
    p.finish = Pwr.leave (.enabled (p.elapsed t).1 (p.iter + 1))
      { p.gpioRead.2 with
        rail := .enabled, iter := p.iter + 1, pgLast := true, overheads := (p.elapsed t).2.overheads } := by
  have read : p.micro = (p.gpioRead.2.goto (.enCount t true), none) := by
    simp only [Pwr.micro, here, railEnPoll_eq, good]
  exact (Pwr.finish_of_goto (by simp [here]) read).trans ((Pwr.finish_of_goto (by simp) rfl).trans
    ((Pwr.finish_of_goto (by simp) rfl).trans
      ((Pwr.finish_of_goto (by simp [enRead]) rfl).trans (Pwr.finish_of_complete (by simp) rfl))))

/-- A failing read ends `RAIL.EN` with no roll-back (R164). -/
theorem Pwr.finish_enPoll_err {p : Pwr} {t : Nat} {e : ErrVal} (here : p.phase = .enPoll t)
    (err : p.lineAt 0 = .err e) :
    p.finish = Pwr.leave (.error (.gpioRead e)) { p.gpioRead.2 with rail := .enabled } := by
  have read : p.micro = (p.gpioRead.2.goto (.enAbort e), none) := by
    simp only [Pwr.micro, here, railEnPoll_eq, err]
  exact (Pwr.finish_of_goto (by simp [here]) read).trans (Pwr.finish_of_complete (by simp) rfl)

/-- An exhausted loop ends `RAIL.EN` with the forced disable, whatever its write answers, and TimeoutError (R166). -/
theorem Pwr.finish_enFail {p : Pwr} {t : Nat} (here : p.phase = .enFail t) :
    p.finish = Pwr.leave (.error (.timeout (p.elapsed t).1))
      { (p.railWrite false).2.rampSleep.2 with rail := .disabled, overheads := (p.elapsed t).2.overheads } := by
  have fail : p.micro = ((p.setRail .failed).goto (.forcedWrite t), none) := by simp only [Pwr.micro, here]
  exact (Pwr.finish_of_goto (by simp [here]) fail).trans ((Pwr.finish_of_goto (by simp) rfl).trans
    ((Pwr.finish_of_goto (by simp [railForcedWrite]) rfl).trans
      ((Pwr.finish_of_goto (by simp) rfl).trans (Pwr.finish_of_complete (by simp) rfl))))

/-- A read of 1 is counted and kept, and `RAIL.STAT` returns 1 (R177). -/
theorem Pwr.finish_statPoll_good {p : Pwr} (here : p.phase = .statPoll) (good : p.lineAt 0 = .level true) :
    p.finish = Pwr.leave (.bit true) { p.gpioRead.2 with iter := p.iter + 1, pgLast := true } := by
  have read : p.micro = (p.gpioRead.2.goto (.statCount true), none) := by
    simp only [Pwr.micro, here, railStatPoll_eq, good]
  exact (Pwr.finish_of_goto (by simp [here]) read).trans
    ((Pwr.finish_of_goto (by simp) rfl).trans (Pwr.finish_of_complete (by simp) rfl))

/-- A failing read ends `RAIL.STAT` at once (R178). -/
theorem Pwr.finish_statPoll_err {p : Pwr} {e : ErrVal} (here : p.phase = .statPoll) (err : p.lineAt 0 = .err e) :
    p.finish = p.gpioRead.2.leave (.error (.gpioRead e)) :=
  Pwr.finish_of_complete (by simp [here]) (by simp only [Pwr.micro, here, railStatPoll_eq, err]; rfl)

/-! ### `RAIL.EN` (R161) -/

/-- The drawn `elapsed` is not below the poll sleeps, which the 32 bits hold (R167). -/
theorem Pwr.pollTime_le_elapsed (p q : Pwr) {k : Nat} (most : k ≤ 500) :
    p.pollTime k ≤ (q.elapsed (p.pollTime k)).1.toNat := by
  have longest := p.pollTime_le k
  exact elapsedTime_ge (by omega) _

/-- Settles O36: `k` reads of 0 (`Pwr.finish_railEn_polled`), and then the exit of a read of 1. -/
theorem railEnSucceeds : Obligations.RailEnSucceeds := by
  intro s k idle ok below zeros good
  obtain ⟨q, run, here, polled⟩ := Pwr.finish_railEn_polled ok below.le zeros
  obtain ⟨count, next, trace⟩ := polled.of_start (p := s.pwr) rfl rfl rfl
  have read : q.lineAt 0 = .level true := next.trans good
  have counted : (q.iter + 1).toNat = k + 1 := by rw [iter_succ (by omega), count]
  have polls : q.iter + 1 = BitVec.ofNat 9 (k + 1) := by rw [← counted, BitVec.ofNat_toNat, BitVec.setWidth_eq]
  rw [Pwr.enNext_below _ (by omega)] at here
  have slept := Pwr.pollTime_le_elapsed s.pwr q below.le
  rw [← polls]
  exact ⟨_, _, next_runPwr_of_finish idle (run.trans (Pwr.finish_enPoll_good here read)), rfl,
    slept, (s.pwr.pollTime_ge k).trans slept, rfl, counted, rfl, rfl, polled.chip,
    (Pwr.gpioRead_trace_of read).trans (congrArg (· ++ _) trace)⟩

/-- Settles O38: `k` reads of 0 (`Pwr.finish_railEn_polled`), and then the exit of a failing read. -/
theorem railEnReadError : Obligations.RailEnReadError := by
  intro s k e idle ok below zeros err
  obtain ⟨q, run, here, polled⟩ := Pwr.finish_railEn_polled ok below.le zeros
  obtain ⟨count, next, trace⟩ := polled.of_start (p := s.pwr) rfl rfl rfl
  have read : q.lineAt 0 = .err e := next.trans err
  rw [Pwr.enNext_below _ (by omega)] at here
  exact ⟨_, next_runPwr_of_finish idle (run.trans (Pwr.finish_enPoll_err here read)), rfl, rfl, count,
    rfl, polled.pgLast, polled.chip, (Pwr.gpioRead_trace_of read).trans (congrArg (· ++ _) trace)⟩

/-- Settles O37: 500 reads of 0 (`Pwr.finish_railEn_polled`), and then the exit of the exhausted loop. -/
theorem railEnTimesOut : Obligations.RailEnTimesOut := by
  intro s idle ok zeros
  obtain ⟨q, run, here, polled⟩ := Pwr.finish_railEn_polled ok (Nat.le_refl 500) zeros
  obtain ⟨count, -, trace⟩ := polled.of_start (p := s.pwr) rfl rfl rfl
  rw [Pwr.enNext_exhausted _ count] at here
  have slept := Pwr.pollTime_le_elapsed s.pwr q (Nat.le_refl 500)
  have forced : q.nextRailWrite = s.pwr.secondRailWrite := by
    rw [Pwr.nextRailWrite, polled.railWrites]
    exact s.pwr.railWrite_then true
  have ramp : q.sleepAt 30000 35000 0 = s.pwr.sleepAt 30000 35000 500 := polled.sleepAt 30000 35000 0
  refine ⟨_, _, next_runPwr_of_finish idle (run.trans (Pwr.finish_enFail here)), rfl, slept,
    (s.pwr.pollTime_ge 500).trans slept, rfl, count, polled.pgLast, rfl, ?_, ?_⟩
  · rw [Pwr.railWrite_rampSleep, forced, polled.chip]
    rfl
  · rw [Pwr.railWrite_rampSleep, forced, ramp, trace]
    rfl

/-! ### `RAIL.STAT` (R177, R178) -/

/-- Settles O45: reads of 0 (`Pwr.finish_railStat_polled`), and then each exit of the loop. -/
theorem railStatAnswers : Obligations.RailStatAnswers := by
  refine ⟨rfl, fun s k idle zeros => ⟨fun below good => ?_, ?_, fun e below err => ?_⟩⟩
  · obtain ⟨q, run, here, polled⟩ := Pwr.finish_railStat_polled below.le zeros
    obtain ⟨count, next, trace⟩ := polled.of_start (p := s.pwr) rfl rfl rfl
    have read : q.lineAt 0 = .level true := next.trans good
    have counted : (q.iter + 1).toNat = k + 1 := by rw [iter_succ (by omega), count]
    rw [Pwr.statNext_below (by omega)] at here
    exact ⟨_, next_runPwr_of_finish idle (run.trans (Pwr.finish_statPoll_good here read)), rfl, counted,
      rfl, polled.rail, polled.chip, (Pwr.gpioRead_trace_of read).trans (congrArg (· ++ _) trace)⟩
  · rintro rfl
    obtain ⟨q, run, here, polled⟩ := Pwr.finish_railStat_polled (Nat.le_refl 500) zeros
    obtain ⟨count, -, trace⟩ := polled.of_start (p := s.pwr) rfl rfl rfl
    have last : q.pgLast = false := polled.pgLast
    rw [Pwr.statNext_exhausted count, last] at here
    exact ⟨_, next_runPwr_of_finish idle (run.trans (Pwr.finish_ret here)), rfl, count, last,
      polled.rail, polled.chip, trace⟩
  · obtain ⟨q, run, here, polled⟩ := Pwr.finish_railStat_polled below.le zeros
    obtain ⟨count, next, trace⟩ := polled.of_start (p := s.pwr) rfl rfl rfl
    have read : q.lineAt 0 = .err e := next.trans err
    rw [Pwr.statNext_below (by omega)] at here
    exact ⟨_, next_runPwr_of_finish idle (run.trans (Pwr.finish_statPoll_err here read)), rfl, count,
      polled.pgLast, polled.rail, polled.chip, (Pwr.gpioRead_trace_of read).trans (congrArg (· ++ _) trace)⟩

/-! ### The RailState transitions (R168) -/

/-- What stands before a micro-step of the transition table that comes only after an event: the phase of the event, and
what the event was (R168). -/
def Pwr.EventBefore (p : Pwr) (next : PwrPhase) : Prop :=
  match next with
  | .enRail => p.phase = .enWrite ∧ p.nextRailWrite = .ok
  | .enCount t g => p.phase = .enPoll t ∧ p.iter.toNat < 500 ∧ p.lineAt 0 = .level g
  | .enKeep t g => p.phase = .enCount t g
  | .enGood t => p.phase = .enKeep t true
  | .enAbort e => (∃ t, p.phase = .enPoll t) ∧ p.lineAt 0 = .err e
  | .enFail _ => (∃ u, p.phase = .enSleep u) ∧ p.iter.toNat = 500 ∧ p.pgLast = false
  | .forcedRail t => p.phase = .forcedSleep t
  | .disSleep w => p.phase = .disWrite ∧ p.nextRailWrite = w
  | .disRail => p.phase = .disSleep .ok
  | _ => True

/-- Under the invariant a micro-step leads to a micro-step of the transition table only by its event (R168). -/
theorem Pwr.Inv.eventBefore {p : Pwr} (h : p.Inv) : p.EventBefore p.micro.1.phase := by
  have poll := h.poll_fits
  cases hp : p.phase <;> simp only [Pwr.micro, hp] <;> rw [hp] at poll
  case enWrite =>
    rw [railEnWrite_eq]
    cases ok : p.nextRailWrite with
    | ok => exact ⟨hp, ok⟩
    | err e took => trivial
  case enPoll t =>
    rw [railEnPoll_eq]
    cases read : p.lineAt 0 with
    | level g =>
      obtain ⟨below, -, -⟩ := poll
      exact ⟨hp, below, read⟩
    | err e => exact ⟨⟨t, hp⟩, read⟩
  case enCount t g => exact hp
  case enKeep t g =>
    cases g with
    | true => exact hp
    | false => trivial
  case enSleep t =>
    obtain ⟨-, -, zero⟩ := poll
    rw [railEnSleep_eq, Pwr.enNext]
    split
    · trivial
    · next all => exact ⟨⟨t, hp⟩, h.iter_le.antisymm (not_lt.mp all), zero⟩
  case forcedSleep t => exact hp
  case disWrite => rw [railDisWrite_eq]; exact ⟨hp, rfl⟩
  case disSleep w =>
    cases w with
    | ok => exact hp
    | err e took => trivial
  case isenQuery => rw [railIsenQuery_eq]; cases p.nextRailQuery <;> trivial
  case statPoll => rw [railStatPoll_eq]; cases p.lineAt 0 <;> trivial
  case statKeep g => cases g <;> trivial
  case statSleep => rw [railStatSleep_eq, Pwr.statNext]; split <;> trivial
  case rdmvLow => rw [vcomRdmvLow_eq]; cases p.nextVcomRead <;> trivial
  case rdmvHigh => rw [vcomRdmvHigh_eq]; cases p.nextVcomRead <;> trivial
  case rduvLow => rw [vcomRduvLow_eq]; cases p.nextVcomRead <;> trivial
  case rduvHigh => rw [vcomRduvHigh_eq]; cases p.nextVcomRead <;> trivial
  case wrmvLow => rw [vcomWrmvLow_eq]; cases p.nextVcomWrite <;> trivial
  case wrmvHigh => rw [vcomWrmvHigh_eq]; cases p.nextVcomWrite <;> trivial
  case fltStateRead => rw [fltStateRead_eq]; cases p.nextFaultRead <;> trivial
  case fltPgRead => rw [fltPgRead_eq]; cases p.nextFaultRead <;> trivial
  all_goals trivial

/-- Settles O46: the updates phase by phase (`Pwr.micro_rail`), from the states the invariant allows there, and each
event by what `Pwr.EventBefore` says of the phase after the micro-step. -/
theorem railTransitions : Obligations.RailTransitions := by
  intro p inv
  have event : ∀ ph, p.micro.1.phase = ph → p.EventBefore ph := fun _ after => after ▸ inv.eventBefore
  refine ⟨?_, event .enRail, fun t => event (.enGood t), fun t g => event (.enKeep t g),
    fun t g => event (.enCount t g), fun e => event (.enAbort e), fun t => event (.enFail t),
    fun t => event (.forcedRail t), event .disRail, fun w => event (.disSleep w)⟩
  have rail := p.micro_rail
  have fits := inv.rail_fits
  have poll := inv.poll_fits
  cases hp : p.phase <;> rw [hp] at rail fits poll
  case enRail => exact .inr (.inl ⟨fits, rfl, rail⟩)
  case enGood t => exact .inr (.inr (.inl ⟨fits, .inl ⟨t, rfl⟩, rail⟩))
  case enAbort e => exact .inr (.inr (.inl ⟨fits, .inr ⟨e, rfl⟩, rail⟩))
  case enFail t =>
    obtain ⟨all, -, -⟩ := poll
    exact .inr (.inr (.inr (.inl ⟨fits, ⟨t, rfl⟩, all, rail⟩)))
  case forcedRail t => exact .inr (.inr (.inr (.inr (.inl ⟨fits, ⟨t, rfl⟩, rail⟩))))
  case disRail => exact .inr (.inr (.inr (.inr (.inr ⟨fits, rfl, rail⟩))))
  all_goals exact .inl rail

end Sys2Proof.Machine
end

section
/-! SUPPORT. The proofs of the statements of spec/43_vcom_codec.md about the codec (R200 to R203) and the two reads
of the VCOM pair (R205, R206). -/

namespace Sys2Proof.Machine

/-! ### The codec (R200 to R203) -/

/-- Millivolts are ten times the 9-bit field. -/
theorem vcomDecode_eq (low high : Byte) :
    vcomDecode low high = 10 * ((low.toNat + 256 * (high.toNat % 2) : Nat) : Int) := by
  rw [vcomDecode, vcomRaw_toNat, Config.vcomStepMv, Int.mul_comm]

/-- Microvolts are ten thousand times the 9-bit field. -/
theorem vcomDecodeUv_eq (low high : Byte) :
    vcomDecodeUv low high = 10000 * ((low.toNat + 256 * (high.toNat % 2) : Nat) : Int) := by
  rw [vcomDecodeUv, vcomRaw_toNat, Config.vcomStepUv, Int.mul_comm]

/-- A magnitude outside 0 to 5000 does not encode. -/
theorem vcomEncode_out_of_range {m : Int} (out : m < 0 ∨ 5000 < m) : vcomEncode m = none := if_pos out

/-- A magnitude in range encodes to the pair whose 16 bits are `m / 10`. -/
theorem vcomEncode_of_field {m : Int} {low high : Byte} (nonneg : 0 ≤ m) (most : m ≤ 5000)
    (field : ((low.toNat + 256 * high.toNat : Nat) : Int) = m / 10) : vcomEncode m = some (low, high) := by
  have raw : (vcomRawOf m).toNat = low.toNat + 256 * high.toNat := by
    rw [vcomRawOf_toNat m nonneg (by omega)]
    omega
  have small := low.isLt
  have lowByte : vcomLow (vcomRawOf m) = low := by
    apply BitVec.eq_of_toNat_eq
    rw [vcomLow_toNat, raw]
    omega
  have highByte : vcomHigh (vcomRawOf m) = high := by
    apply BitVec.eq_of_toNat_eq
    rw [vcomHigh_toNat _ (by omega), raw]
    omega
  have not_out : ¬(m < 0 ∨ Config.vcomMaxMv < m) := by simp only [Config.vcomMaxMv]; omega
  rw [vcomEncode, if_neg not_out, lowByte, highByte]

/-- R202: the low byte and the high bit of `m / 10`. -/
theorem vcomEncode_in_range {m : Int} (nonneg : 0 ≤ m) (most : m ≤ 5000) :
    vcomEncode m = some (BitVec.ofInt 8 (m / 10 % 256), BitVec.ofInt 8 (m / 10 / 256)) := by
  apply vcomEncode_of_field nonneg most
  rw [BitVec.toNat_ofInt, BitVec.toNat_ofInt]
  omega

/-- R203 (a): decoding the encoding rounds down to a multiple of 10. -/
theorem vcomDecode_encoded {m : Int} (nonneg : 0 ≤ m) (most : m ≤ 5000) :
    vcomDecode (BitVec.ofInt 8 (m / 10 % 256)) (BitVec.ofInt 8 (m / 10 / 256)) = 10 * (m / 10) := by
  rw [vcomDecode_eq, BitVec.toNat_ofInt, BitVec.toNat_ofInt]
  omega

/-- R203 (c): a pair that decodes into the range is the encoding of that magnitude, but for the ignored bits. -/
theorem vcomEncode_decoded {low high : Byte} (most : vcomDecode low high ≤ 5000) :
    vcomEncode (vcomDecode low high) = some (low, high &&& 1) := by
  have bit : (high &&& 1).toNat = high.toNat % 2 := by
    rw [BitVec.toNat_and]
    exact Nat.and_one_is_mod _
  rw [vcomDecode_eq] at most ⊢
  exact vcomEncode_of_field (by omega) most (by rw [bit]; omega)

/-- Settles O48: the answer is `vcomDecode`'s. -/
theorem vcomDecValue : Obligations.VcomDecValue := by
  intro s low high
  rw [exec, execVcomDec, vcomDecode_eq]
  exact ⟨rfl, fun idle => congrArg Host.Outcome.next (State.answerPwr_idle _ idle), rfl⟩

/-- Settles O49: the answer is `vcomDecodeUv`'s. -/
theorem vcomDecuvValue : Obligations.VcomDecuvValue := by
  intro s low high
  rw [exec, execVcomDecuv, vcomDecodeUv_eq]
  exact ⟨rfl, fun idle => congrArg Host.Outcome.next (State.answerPwr_idle _ idle), rfl⟩

/-- Settles O50: the answer is `vcomEncode`'s, in range and outside. -/
theorem vcomEncValue : Obligations.VcomEncValue := by
  intro s m
  refine ⟨rfl, pairOrRange (vcomEncode m), fun idle => congrArg Host.Outcome.next (State.answerPwr_idle _ idle), rfl,
    fun ⟨nonneg, most⟩ => ?_, fun out => ?_⟩
  · rw [vcomEncode_in_range nonneg most, pairOrRange]
  · rw [vcomEncode_out_of_range out, pairOrRange]

/-- Settles O51: R203 (a) gives (b) by the division's remainder, and (d) is the encoder's range. -/
theorem vcomRoundTrips : Obligations.VcomRoundTrips := by
  refine ⟨fun m nonneg most => ?_, fun _ => vcomEncode_out_of_range, fun _ _ => vcomEncode_decoded,
    fun _ _ above => vcomEncode_out_of_range (.inr above)⟩
  have rounded := vcomDecode_encoded nonneg most
  exact ⟨_, _, vcomEncode_in_range nonneg most, rounded, fun multiple => by omega⟩

/-! ### `VCOM.RDMV` and `VCOM.RDUV` (R205, R206) -/

/-- What a read answered with `a` returns: `r` on success, and TransportError on failure. -/
def regReadResult (a : ReadAnswer) (r : Result) : Result :=
  match a with
  | .ok => r
  | .err e => .error (.transport e)

/-- An operation that reads the pair, low then high, and returns `value` of it: its micro-steps at the phase `first`
and, with the low byte read, at the phase `second`. -/
structure ReadsVcomPair (first : PwrPhase) (second : Byte → PwrPhase) (value : Byte → Byte → Int) : Prop where
  first_ne_idle : first ≠ .idle
  second_ne_idle : ∀ low : Byte, second low ≠ .idle
  low_ok : ∀ p : Pwr, p.phase = first → p.nextVcomRead = .ok →
    p.micro = (p.readVcomL.2.goto (second p.chip.vcomL), none)
  low_err : ∀ (p : Pwr) (e : ErrVal), p.phase = first → p.nextVcomRead = .err e →
    p.micro = (p.readVcomL.2.raise (.transport e), none)
  high : ∀ (p : Pwr) (low : Byte), p.phase = second low →
    p.micro = (p.readVcomH.2.complete (regReadResult p.nextVcomRead (.int (value low p.chip.vcomH))), none)

theorem readsVcomPair_rdmv : ReadsVcomPair .rdmvLow .rdmvHigh vcomDecodeSigned where
  first_ne_idle := nofun
  second_ne_idle := nofun
  low_ok p here ok := by simp only [Pwr.micro, here, vcomRdmvLow_eq, ok]
  low_err p e here err := by simp only [Pwr.micro, here, vcomRdmvLow_eq, err]
  high p low here := by
    simp only [Pwr.micro, here, vcomRdmvHigh_eq]
    cases p.nextVcomRead <;> rfl

theorem readsVcomPair_rduv : ReadsVcomPair .rduvLow .rduvHigh vcomDecodeUv where
  first_ne_idle := nofun
  second_ne_idle := nofun
  low_ok p here ok := by simp only [Pwr.micro, here, vcomRduvLow_eq, ok]
  low_err p e here err := by simp only [Pwr.micro, here, vcomRduvLow_eq, err]
  high p low here := by
    simp only [Pwr.micro, here, vcomRduvHigh_eq]
    cases p.nextVcomRead <;> rfl

/-- From `s` to `t` the host gets the result `r`, the ports see `ports`, and the chip is as it was. -/
def State.Returns (s t : State) (r : Result) (ports : List PwrPort) : Prop :=
  t.results = s.results ++ [r] ∧ t.pwr.trace = s.pwr.trace ++ ports ∧ t.pwr.chip = s.pwr.chip

/-- Over an idle `PWR` an operation whose run from the start ends with `r` after `ports` returns the one and leaves
the other on the trace. -/
theorem State.returns_of_finish {s : State} {ph : PwrPhase} {q : Pwr} {r : Result} {ports : List PwrPort}
    (idle : s.pwr.phase = .idle) (run : (s.pwr.start ph).finish = q.leave r) (trace : q.trace = s.pwr.trace ++ ports)
    (chip : q.chip = s.pwr.chip) : s.Returns (s.runPwr ph) r ports := by
  rw [State.Returns, State.runPwr_idle ph idle, run]
  exact ⟨rfl, trace, chip⟩

/-- A failing low read ends the operation before the high one. -/
theorem ReadsVcomPair.returns_low_err {first : PwrPhase} {second : Byte → PwrPhase} {value : Byte → Byte → Int}
    (h : ReadsVcomPair first second value) {s : State} {e : ErrVal} (idle : s.pwr.phase = .idle)
    (err : s.pwr.nextVcomRead = .err e) :
    s.Returns (s.runPwr first) (.error (.transport e)) [.regRead .vcomL (.err e)] := by
  refine State.returns_of_finish idle (Pwr.finish_of_complete h.first_ne_idle (h.low_err _ e rfl err)) ?_ rfl
  change s.pwr.trace ++ [.regRead .vcomL s.pwr.readVcomL.1] = _
  rw [Pwr.readVcomL_answer, err, storedAnswer]

/-- The trace of two reads of which the first succeeds. -/
theorem Pwr.readVcomPair_trace {p : Pwr} (ok : p.nextVcomRead = .ok) :
    p.readVcomL.2.readVcomH.2.trace = p.trace ++
      [.regRead .vcomL (.ok p.chip.vcomL), .regRead .vcomH (storedAnswer p.secondVcomRead p.chip.vcomH)] := by
  rw [Pwr.readVcomH_trace, Pwr.readVcomH_answer, Pwr.readVcomL_then, Pwr.readVcomL_chip, Pwr.readVcomL_trace,
    Pwr.readVcomL_answer, ok, List.append_assoc]
  rfl

/-- After a low read that succeeds the high one ends the run, whatever it answers. -/
theorem ReadsVcomPair.finish_low_ok {first : PwrPhase} {second : Byte → PwrPhase} {value : Byte → Byte → Int}
    (h : ReadsVcomPair first second value) {p : Pwr} (here : p.phase = first) (ok : p.nextVcomRead = .ok) :
    p.finish = (p.readVcomL.2.goto (second p.chip.vcomL)).readVcomH.2.leave
      (regReadResult p.secondVcomRead (.int (value p.chip.vcomL p.chip.vcomH))) := by
  rw [Pwr.finish_of_goto (here ▸ h.first_ne_idle) (h.low_ok p here ok),
    Pwr.finish_of_complete (h.second_ne_idle _) (h.high _ p.chip.vcomL rfl), ← Pwr.readVcomL_then]
  rfl

/-- The whole operation where the low read succeeds and `a` answers the high one. -/
theorem ReadsVcomPair.returns_low_ok {first : PwrPhase} {second : Byte → PwrPhase} {value : Byte → Byte → Int}
    (h : ReadsVcomPair first second value) {s : State} {a : ReadAnswer} (idle : s.pwr.phase = .idle)
    (ok : s.pwr.nextVcomRead = .ok) (answer : s.pwr.secondVcomRead = a) :
    s.Returns (s.runPwr first) (regReadResult a (.int (value s.pwr.chip.vcomL s.pwr.chip.vcomH)))
      [.regRead .vcomL (.ok s.pwr.chip.vcomL), .regRead .vcomH (storedAnswer a s.pwr.chip.vcomH)] := by
  subst answer
  exact State.returns_of_finish idle (h.finish_low_ok rfl ok) (Pwr.readVcomPair_trace ok) rfl

/-- Settles O52: by the answer of the low read, and where it succeeds by that of the high one. -/
theorem vcomRdmvEffect : Obligations.VcomRdmvEffect := by
  refine ⟨rfl, fun s idle => ⟨fun ok highOk => ⟨_, rfl, ?_⟩, fun e err => ⟨_, rfl, ?_⟩,
    fun e ok highErr => ⟨_, rfl, ?_⟩⟩⟩
  · exact readsVcomPair_rdmv.returns_low_ok idle ok highOk
  · exact readsVcomPair_rdmv.returns_low_err idle err
  · exact readsVcomPair_rdmv.returns_low_ok idle ok highErr

/-- Settles O53: the same reads as `VCOM.RDMV`'s, with their own value of the pair. -/
theorem vcomRduvEffect : Obligations.VcomRduvEffect := by
  refine ⟨rfl, fun s idle => ⟨fun ok highOk => ⟨_, rfl, ?_⟩, fun e err => ⟨_, rfl, ?_⟩,
    fun e ok highErr => ⟨_, rfl, ?_⟩⟩⟩
  · exact readsVcomPair_rduv.returns_low_ok idle ok highOk
  · exact readsVcomPair_rduv.returns_low_err idle err
  · exact readsVcomPair_rduv.returns_low_ok idle ok highErr

end Sys2Proof.Machine
end

section
/-! SUPPORT. The proofs of the statements of spec/44_fault_status.md: `FLT.STATE` and `FLT.PG` over an idle `PWR`, both
one read of the fault register with a value of its byte (R231, R232). -/

namespace Sys2Proof.Machine

/-- What a read of the fault register answered with `a` returns: `value` of the byte on success, and TransportError on
failure. -/
def faultReadResult (value : Byte → Result) (a : ByteAnswer) : Result :=
  match a with
  | .ok v => value v
  | .err e => .error (.transport e)

/-- The half after a read of the fault register that ended its operation: only the record of the volatile register,
the answers left and the trace are new. -/
def Pwr.afterFaultRead (p : Pwr) : Pwr :=
  { p with
    busy := false
    faultReads := (p.faultReads.next Config.freeFaultRead).2
    chip := { p.chip with fault := faultAfter p.nextFaultRead p.chip.fault }
    trace := p.trace ++ [.regRead .fault p.nextFaultRead] }

/-- An operation that is one read of the fault register, at the phase `ph`, and returns `value` of its byte. -/
structure ReadsFault (ph : PwrPhase) (value : Byte → Result) : Prop where
  ne_idle : ph ≠ .idle
  read : ∀ p : Pwr, p.phase = ph →
    p.micro = (p.readFault.2.complete (faultReadResult value p.nextFaultRead), none)

theorem readsFault_state : ReadsFault .fltStateRead fltStateOf where
  ne_idle := nofun
  read p here := by
    simp only [Pwr.micro, here, fltStateRead_eq]
    cases p.nextFaultRead <;> rfl

theorem readsFault_pg : ReadsFault .fltPgRead (.bit <| fltPgBit ·) where
  ne_idle := nofun
  read p here := by
    simp only [Pwr.micro, here, fltPgRead_eq]
    cases p.nextFaultRead <;> rfl

/-- The whole operation over an idle `PWR`, for every answer of its read. -/
theorem ReadsFault.next_runPwr {ph : PwrPhase} {value : Byte → Result} (h : ReadsFault ph value) {s : State}
    (idle : s.pwr.phase = .idle) :
    Host.Outcome.next (s.runPwr ph) =
      (.next { s with
        pwr := s.pwr.afterFaultRead
        results := s.results ++ [faultReadResult value s.pwr.nextFaultRead] } :
          Host.Outcome State Fault Refusal) := by
  have run := Pwr.finish_of_complete h.ne_idle (h.read (s.pwr.start ph) rfl)
  rw [next_runPwr_of_finish idle run, Pwr.readFault_eq, Pwr.leave, Pwr.afterFaultRead, ← idle]
  rfl

/-- R231: the index is in the table exactly where the byte is below 32. -/
theorem fltStateOf_eq (v : Byte) :
    fltStateOf v = if v.toNat < 32 then .index (faultIndex v) else .error (.statusIndex (faultIndex v)) := by
  rw [fltStateOf, faultIndex_toNat]
  by_cases small : v.toNat < 32
  · rw [if_pos small, if_neg (by omega)]
  · rw [if_neg small, if_pos (by omega)]

/-- Settles O58: the operation is its read, and the byte gives its upper seven bits. -/
theorem fltStateEffect : Obligations.FltStateEffect := by
  refine ⟨rfl, fun s idle => ⟨_, readsFault_state.next_runPwr idle, rfl, fun v ok => ?_, fun e err => ?_,
    rfl, rfl, rfl, rfl, rfl, rfl, rfl, rfl, rfl, rfl⟩⟩
  · refine ⟨faultIndex v, faultIndex_toNat v, ?_⟩
    rw [ok, faultReadResult, fltStateOf_eq]
  · rw [err, faultReadResult]

/-- Settles O59: the operation is its read, and the byte gives its bit 0. -/
theorem fltPgEffect : Obligations.FltPgEffect := by
  refine ⟨rfl, fun s idle => ⟨_, readsFault_pg.next_runPwr idle, rfl, fun v ok => ?_, fun e err => ?_,
    rfl, rfl, rfl, rfl, rfl, rfl, rfl, rfl, rfl, rfl⟩⟩
  · rw [ok, faultReadResult, fltPgBit, bitSet_touch]
  · rw [err, faultReadResult]

end Sys2Proof.Machine
end

section
/-! SUPPORT. The proofs of the statements of spec/60_exceptions.md: no service while interrupts are disabled (R247), and
what the errors of `VCOM.WRMV` leave behind (R255). -/

namespace Sys2Proof.Machine

/-! ### Interrupts disabled (R247, spec/41_pen_report.md R147) -/

/-- No `PEN.IRQ` is in flight, and the report reads still to come are `reads`. -/
def Dig.Unserved (reads : Oracle RecvAnswer) (d : Dig) : Prop :=
  d.phase.servesEdge = false ∧ d.reportReads = reads

/-- Only a service reads reports, and no micro-step starts one. -/
theorem Dig.Unserved.micro {reads : Oracle RecvAnswer} {d : Dig} (h : d.Unserved reads) : d.micro.1.Unserved reads := by
  obtain ⟨quiet, same⟩ := h
  cases hp : d.phase with
  | penRecv | penDecode | penEmit => rw [hp] at quiet; cases quiet
  | idle => simpa only [Dig.micro, hp] using ⟨quiet, same⟩
  | qryTransfer =>
    simp only [Dig.micro, hp, qryTransfer_eq]
    cases d.nextTransfer <;> exact ⟨rfl, same⟩
  | irqGate on => cases on <;> simp only [Dig.micro, hp] <;> exact ⟨rfl, same⟩
  | qryPulse | qryLatch | ret => simp only [Dig.micro, hp]; exact ⟨rfl, same⟩

/-- An edge starts nothing and reads nothing. -/
theorem Dig.Unserved.edge {reads : Oracle RecvAnswer} {d : Dig} (h : d.Unserved reads) (draw : EdgeDraw) :
    (d.edge draw).Unserved reads := by
  obtain e | ⟨-, e⟩ | ⟨-, -, e⟩ := d.edge_cases draw <;> rw [e] <;> exact h

/-- With interrupts disabled no start is that of a service (spec/41_pen_report.md R145). -/
theorem Dig.Unserved.starts {reads : Oracle RecvAnswer} {d e : Dig} (h : d.Unserved reads) (disabled : d.irqEn = false)
    (hs : d.Starts e) : e.Unserved reads := by
  cases hs with
  | query =>
    obtain ⟨-, quiet, -⟩ := qryFirst_claims d
    exact ⟨quiet, h.2⟩
  | gate on => exact ⟨rfl, h.2⟩
  | service ready => exact absurd ready.2 (by simp [disabled])

/-- From an idle `DIG` with interrupts disabled no step starts a service. -/
theorem Dig.StepTo.unserved {d e : Dig} (h : d.StepTo e) (idle : d.phase = .idle) (disabled : d.irqEn = false) :
    e.Unserved d.reportReads := by
  have unserved : d.Unserved d.reportReads := ⟨by rw [idle]; rfl, rfl⟩
  have settled : d.finish.1 = d := Dig.finish_fst_of_idle idle
  cases h with
  | same => exact unserved
  | micro => exact unserved.micro
  | settle => rwa [settled]
  | edge draw => exact unserved.edge draw
  | launch hs => exact unserved.starts disabled (settled ▸ hs)
  | whole hs =>
    exact Dig.finish_keeps _ (fun _ _ => Dig.Unserved.micro) _ (unserved.starts disabled (settled ▸ hs))

/-- Settles O21: under the invariant no service is in flight while interrupts are disabled, and none starts then. -/
theorem noServiceWhileDisabled : Obligations.NoServiceWhileDisabled := by
  refine ⟨fun d inv disabled => ?_, fun s t idle disabled h => ?_⟩
  · have quiet : d.phase.servesEdge = false :=
      Bool.eq_false_iff.mpr fun serves => by simp [inv.serve_enabled serves] at disabled
    exact Dig.Unserved.micro ⟨quiet, rfl⟩
  · obtain ⟨hd, -⟩ | ⟨-, reset, -⟩ := step_halves h
    · exact hd.unserved idle disabled
    · rw [reset, Dig.finish_fst_of_idle idle]
      exact ⟨rfl, rfl⟩

/-! ### `VCOM.WRMV` over an idle `PWR`, by the answers of its writes (spec/43_vcom_codec.md R207) -/

/-- `VCOM.WRMV` encodes the negated voltage, its own range being that of `VCOM.ENC` (spec/30_encoding.md R102). -/
theorem vcomEncodeSigned_eq (v : Int) : vcomEncodeSigned v = vcomEncode (-v) := by
  unfold vcomEncodeSigned Config.vcomMaxMv
  split
  · next out => exact (vcomEncode_out_of_range (by omega)).symm
  · rfl

/-- Where the negated voltage encodes, the operation begins with its low write. -/
theorem wrmvFirst_of_encode {v : Int} {low high : Byte} (code : vcomEncode (-v) = some (low, high)) :
    wrmvFirst v = .wrmvLow low high := by
  rw [wrmvFirst, vcomEncodeSigned_eq, code]

/-- Where it does not, the operation is at its end before any write. -/
theorem wrmvFirst_out_of_range {v : Int} (out : v < -5000 ∨ 0 < v) : wrmvFirst v = .ret (.error .range) := by
  rw [wrmvFirst, vcomEncodeSigned_eq, vcomEncode_out_of_range (by omega)]

/-- What an operation returns whose last write answered `a`. -/
def regWriteResult (a : WriteAnswer) : Result :=
  match a with
  | .ok => .ok
  | .err e _ => .error (.transport e)

/-- The high write ends the run, whatever it answers. -/
theorem Pwr.finish_wrmvHigh {p : Pwr} {high : Byte} (here : p.phase = .wrmvHigh high) :
    p.finish = (p.writeVcomH high).2.leave (regWriteResult p.nextVcomWrite) := by
  have write : p.micro = (vcomWrmvHigh high p, none) := by simp only [Pwr.micro, here]
  rw [vcomWrmvHigh_eq] at write
  refine Pwr.finish_of_complete (by simp [here]) (write.trans ?_)
  cases p.nextVcomWrite <;> rfl

/-- A failing low write ends the run before the high one. -/
theorem Pwr.finish_wrmvLow_err {p : Pwr} {low high : Byte} {e : ErrVal} {took : Bool}
    (here : p.phase = .wrmvLow low high) (err : p.nextVcomWrite = .err e took) :
    p.finish = (p.writeVcomL low).2.leave (.error (.transport e)) :=
  Pwr.finish_of_complete (by simp [here]) (by simp only [Pwr.micro, here, vcomWrmvLow_eq, err]; rfl)

/-- After a low write that succeeds the run is the high write, which the next answer decides. -/
theorem Pwr.finish_wrmvLow_ok {p : Pwr} {low high : Byte} (here : p.phase = .wrmvLow low high)
    (ok : p.nextVcomWrite = .ok) :
    p.finish = (((p.writeVcomL low).2.goto (.wrmvHigh high)).writeVcomH high).2.leave
      (regWriteResult p.secondVcomWrite) := by
  have write : p.micro = ((p.writeVcomL low).2.goto (.wrmvHigh high), none) := by
    simp only [Pwr.micro, here, vcomWrmvLow_eq, ok]
  rw [Pwr.finish_of_goto (by simp [here]) write, Pwr.finish_wrmvHigh rfl, ← Pwr.writeVcomL_then low]
  rfl

/-- The whole of `VCOM.WRMV` outside its range. -/
theorem exec_vcomWrmv_out_of_range {s : State} {v : Int} (idle : s.pwr.phase = .idle) (out : v < -5000 ∨ 0 < v) :
    exec (.vcomWrmv v) s = .next
      { s with pwr := { s.pwr with busy := false }, results := s.results ++ [.error .range] } := by
  rw [exec, execVcomWrmv, wrmvFirst_out_of_range out, next_runPwr_of_finish idle (Pwr.finish_ret rfl), Pwr.leave,
    ← idle]
  rfl

/-- The whole of `VCOM.WRMV` where the low write fails. -/
theorem exec_vcomWrmv_low_err {s : State} {v : Int} {low high : Byte} {e : ErrVal} {took : Bool}
    (idle : s.pwr.phase = .idle) (code : vcomEncode (-v) = some (low, high))
    (err : s.pwr.nextVcomWrite = .err e took) :
    exec (.vcomWrmv v) s = .next
      { s with
        pwr := { s.pwr with
          busy := false
          chip := { s.pwr.chip with vcomL := writeLeaves (.err e took) s.pwr.chip.vcomL low }
          vcomWrites := (s.pwr.vcomWrites.next Config.freeVcomWrite).2
          trace := s.pwr.trace ++ [.regWrite .vcomL low (.err e took)] }
        results := s.results ++ [.error (.transport e)] } := by
  have err : (s.pwr.start (.wrmvLow low high)).nextVcomWrite = .err e took := err
  rw [exec, execVcomWrmv, wrmvFirst_of_encode code, next_runPwr_of_finish idle (Pwr.finish_wrmvLow_err rfl err),
    Pwr.writeVcomL_eq, err, Pwr.leave, ← idle]
  rfl

/-- The whole of `VCOM.WRMV` where the low write succeeds and `a` answers the high one. -/
theorem exec_vcomWrmv_low_ok {s : State} {v : Int} {low high : Byte} {a : WriteAnswer} (idle : s.pwr.phase = .idle)
    (code : vcomEncode (-v) = some (low, high)) (ok : s.pwr.nextVcomWrite = .ok)
    (answer : s.pwr.secondVcomWrite = a) :
    exec (.vcomWrmv v) s = .next
      { s with
        pwr := { s.pwr with
          busy := false
          chip := { s.pwr.chip with vcomL := low, vcomH := writeLeaves a s.pwr.chip.vcomH high }
          vcomWrites := ((s.pwr.vcomWrites.next Config.freeVcomWrite).2.next Config.freeVcomWrite).2
          trace := s.pwr.trace ++ [.regWrite .vcomL low .ok, .regWrite .vcomH high a] }
        results := s.results ++ [regWriteResult a] } := by
  have ok : (s.pwr.start (.wrmvLow low high)).nextVcomWrite = .ok := ok
  have second : (((s.pwr.start (.wrmvLow low high)).writeVcomL low).2.goto (.wrmvHigh high)).nextVcomWrite = a :=
    (Pwr.writeVcomL_then low _).trans answer
  have answer : (s.pwr.start (.wrmvLow low high)).secondVcomWrite = a := answer
  rw [exec, execVcomWrmv, wrmvFirst_of_encode code, next_runPwr_of_finish idle (Pwr.finish_wrmvLow_ok rfl ok),
    Pwr.writeVcomH_eq, second, Pwr.writeVcomL_eq, ok, answer, Pwr.leave, ← idle,
    List.append_cons s.pwr.trace (.regWrite .vcomL low .ok) [_]]
  rfl

/-- Settles O55: the range first, then the answer of the low write, then that of the high one. -/
theorem vcomWrmvErrors : Obligations.VcomWrmvErrors := by
  intro s v idle
  have encodes : -5000 ≤ v → v ≤ 0 → ∃ low high, vcomEncode (-v) = some (low, high) := fun least most =>
    ⟨_, _, vcomEncode_in_range (by omega) (by omega)⟩
  refine ⟨exec_vcomWrmv_out_of_range idle, fun e took least most err => ?_, fun e took least most ok err => ?_⟩
  · obtain ⟨low, high, code⟩ := encodes least most
    exact ⟨_, low, high, code, exec_vcomWrmv_low_err idle code err, rfl, rfl, rfl⟩
  · obtain ⟨low, high, code⟩ := encodes least most
    exact ⟨_, low, high, code, exec_vcomWrmv_low_ok idle code ok err, rfl, rfl, rfl⟩

end Sys2Proof.Machine
end

section
/-! SUPPORT. The proofs of the statements of spec/70_reset_and_hazards.md: `SYS.RESET` over idle agents (R280, R281),
the bounds of a sleep (R300), and the end of a run (R302). -/

namespace Sys2Proof.Machine

/-! ### `SYS.RESET` (R280) -/

/-- Over idle agents `SYS.RESET` has nothing to wait for. -/
theorem State.systemReset_idle {s : State} (idle : s.idle) :
    s.systemReset = { s with dig := s.dig.systemReset, pwr := s.pwr.systemReset } := by
  rw [State.systemReset, State.settleDig_idle idle.1, State.settlePwr_idle idle.2]

/-- Settles O3: what the reset writes in each half; both phases were idle before it. -/
theorem sysResetEffect : Obligations.SysResetEffect := by
  intro s idle
  refine ⟨Config.freeLimits s.dig.unspec, Config.freeKind s.dig.unspec, ?_⟩
  rw [exec, execSysReset, State.systemReset_idle idle, Dig.systemReset, Pwr.systemReset, ← idle.1, ← idle.2]
  rfl

/-! ### The duration of a sleep (R300) -/

/-- The overrun that draws a duration between the bounds is its distance from the lower one. -/
theorem sleepTime_sub {lo hi d : Nat} (least : lo ≤ d) (most : d ≤ hi) : sleepTime lo hi (d - lo) = d := by
  rw [sleepTime, Nat.min_eq_left (Nat.sub_le_sub_right most lo), Nat.add_sub_of_le least]

/-- Settles O43: the bounds of the drawn duration, and the overrun that draws a given one. -/
theorem sleepWithinBounds : Obligations.SleepWithinBounds :=
  ⟨fun _ lo hi _ bounds => ⟨sleepTime_ge lo hi _, sleepTime_le bounds _⟩,
    fun lo _ d least most => ⟨d - lo, sleepTime_sub least most⟩⟩

/-! ### The end of a run (R302) -/

/-- An idle agent has no micro-step to make. -/
theorem State.advance_idle {s : State} {a : Agent} (idle : s.agentIdle a) : s.advance a = s :=
  State.schedule_idle idle 1

/-- With both agents idle no agent has a micro-step to make. -/
theorem State.idle.agentIdle {s : State} (idle : s.idle) (a : Agent) : s.agentIdle a := by
  cases a with
  | dig => exact idle.1
  | pwr => exact idle.2

/-- Where the busy bit of `DIG` is 0 nothing of it is in flight (spec/10_state.md R33). -/
theorem Dig.Inv.idle_of_not_busy {d : Dig} (inv : d.Inv) (free : d.busy = false) : d.phase = .idle := by
  by_contra going
  exact Bool.false_ne_true (free.symm.trans (inv.busy_iff.mpr going))

/-- Where the busy bit of `PWR` is 0 nothing of it is in flight (R33). -/
theorem Pwr.Inv.idle_of_not_busy {p : Pwr} (inv : p.Inv) (free : p.busy = false) : p.phase = .idle := by
  by_contra going
  exact Bool.false_ne_true (free.symm.trans (inv.busy_iff.mpr going))

/-- At the end of a run no edge can be served. -/
theorem State.ended.not_edgeReady {s : State} (ended : s.ended) : s.edgeReady = false := by
  obtain ⟨-, -, -, bits⟩ := ended
  exact Bool.and_eq_false_iff.mpr bits

/-- The run is still over when a move has been taken out. -/
theorem State.ended.take {s : State} {m : Move} {more : List Move} (ended : s.ended) (next : s.inbox = m :: more) :
    State.ended { s with inbox := more } :=
  ⟨fun m' later => ended.1 m' (next ▸ List.mem_cons_of_mem m later), ended.2⟩

/-- With interrupts disabled an edge that comes after the end of a run leaves it over: it is held or lost (R247). -/
theorem State.ended.edge {s : State} (ended : s.ended) (disabled : s.dig.irqEn = false) (draw : EdgeDraw) :
    State.ended { s with dig := s.dig.edge draw } := by
  obtain e | ⟨enabled, -⟩ | ⟨-, -, e⟩ := s.dig.edge_cases draw
  · rw [e]; exact ended
  · exact absurd enabled (ne_true_of_eq_false disabled)
  · rw [e]; exact ended

/-- What a move can do after the end of a run with both agents idle: nothing, or it is the environment's and writes its
own element, or the host's read and returns a result. -/
inductive State.QuietTo (s : State) : Move → State → Prop
  | same (m : Move) : QuietTo s m s
  | edge (draw : EdgeDraw) : QuietTo s (.edge draw) { s with dig := s.dig.edge draw }
  | line (b : Bool) : QuietTo s (.line b) { s with pwr := { s.pwr with pgood := b } }
  | faultReg (v : Byte) :
      QuietTo s (.faultReg v) { s with pwr := { s.pwr with chip := { s.pwr.chip with fault := v } } }
  | readCaps : QuietTo s .readCaps (s.reply (.limits s.dig.caps.limits))
  | readCapsValid : QuietTo s .readCapsValid (s.reply (.bit s.dig.caps.valid))

/-- No move but a command starts an operation over idle agents with no edge to serve. -/
theorem perform_quietTo {s t : State} {m : Move} (idle : s.idle) (unready : s.edgeReady = false)
    (free : m.isCommand = false) (h : perform m s = .next t) : s.QuietTo m t := by
  cases m with
  | command | launch => cases free
  | advance a =>
    cases h
    rw [State.advance_idle (idle.agentIdle a)]
    exact .same _
  | service =>
    rw [perform, serve_idle idle.1, unready] at h
    cases h; exact .same _
  | launchService =>
    rw [perform, launchServe_idle idle.1, unready] at h
    cases h; exact .same _
  | edge draw => cases h; exact .edge draw
  | line b => cases h; exact .line b
  | faultReg v => cases h; exact .faultReg v
  | readCaps =>
    rw [perform, Machine.readCaps] at h
    split at h <;> cases h
    exact .readCaps
  | readCapsValid => cases h; exact .readCapsValid

/-- With no move left, idle agents and no edge to serve, the block does nothing (log entry 8). -/
theorem step_of_nothing_left {s : State} (idle : s.idle) (unready : s.edgeReady = false) (empty : s.inbox = []) :
    step s = .next s := by
  simp [step, stepMove, empty, unattended, idle.1, idle.2, unready]

/-- An edge writes the two edge bits only. -/
theorem Dig.edge_frame (d : Dig) (draw : EdgeDraw) :
    d.edge draw = { d with irqPend := (d.edge draw).irqPend, irqHeld := (d.edge draw).irqHeld } := by
  obtain e | ⟨-, e⟩ | ⟨-, -, e⟩ := d.edge_cases draw <;> rw [e]

/-- A quiet move changes nothing on the digitizer side but the edge bits. -/
theorem State.QuietTo.dig_frame {s t : State} {m : Move} (h : s.QuietTo m t) :
    t.dig = { s.dig with irqPend := t.dig.irqPend, irqHeld := t.dig.irqHeld } := by
  cases h with
  | edge draw => exact s.dig.edge_frame draw
  | _ => rfl

/-- A quiet move changes nothing on the power side but the line and the fault register. -/
theorem State.QuietTo.pwr_frame {s t : State} {m : Move} (h : s.QuietTo m t) :
    t.pwr = { s.pwr with pgood := t.pwr.pgood, chip := { s.pwr.chip with fault := t.pwr.chip.fault } } := by
  cases h <;> rfl

/-- A quiet move returns a result only as a host read of `caps`. -/
theorem State.QuietTo.results_eq {s t : State} {m : Move} (h : s.QuietTo m t) :
    t.results = s.results ∨ m = .readCaps ∨ m = .readCapsValid := by
  cases h with
  | readCaps => exact .inr (.inl rfl)
  | readCapsValid => exact .inr (.inr rfl)
  | _ => exact .inl rfl

/-- After a quiet move the run is still over, but for an edge while interrupts are enabled. -/
theorem State.QuietTo.ended {s t : State} {m : Move} (h : s.QuietTo m t) (ended : s.ended) :
    t.ended ∨ ∃ draw, m = .edge draw ∧ s.dig.irqEn = true := by
  cases h with
  | edge draw =>
    cases enabled : s.dig.irqEn with
    | true => exact .inr ⟨draw, rfl, rfl⟩
    | false => exact .inl (ended.edge enabled draw)
  | _ => exact .inl ended

/-- Settles O11: the busy bits tell that nothing is in flight, with no move left a step does nothing, and the move of
any other step is quiet. -/
theorem endedStaysEnded : Obligations.EndedStaysEnded := by
  intro s ended
  have unready : s.edgeReady = false := ended.not_edgeReady
  refine ⟨fun inv => ?_, fun idle => step_of_nothing_left idle unready, fun idle t h => ?_⟩
  · obtain ⟨-, dig, pwr, -⟩ := ended
    exact ⟨inv.dig.idle_of_not_busy dig, inv.pwr.idle_of_not_busy pwr⟩
  · cases inbox : s.inbox with
    | nil =>
      rw [step_of_nothing_left idle unready inbox] at h
      cases h
      exact ⟨rfl, rfl, .inl rfl, .inl ended⟩
    | cons m more =>
      rw [step_of_inbox inbox] at h
      have free : m.isCommand = false := ended.1 m (inbox ▸ List.mem_cons_self)
      have quiet : State.QuietTo { s with inbox := more } m t := perform_quietTo idle unready free h
      refine ⟨quiet.dig_frame, quiet.pwr_frame, ?_, ?_⟩
      · exact quiet.results_eq.imp_right fun read => ⟨more, by simpa using read⟩
      · exact (quiet.ended (ended.take inbox)).imp_right fun ⟨draw, edge, enabled⟩ =>
          ⟨draw, more, by rw [edge], enabled⟩

end Sys2Proof.Machine
end

section
/-! SUPPORT. The command map from any bytes (spec/30_encoding.md R95): what is decoded, one word of each unit, and the
step that runs a decoded command. -/

namespace Sys2Proof

/-! ### What is decoded, and from how many bytes (log entry 1) -/

/-- The operation is well-formed, and its operands are what `l` has before `rest`, by their number. -/
def Instr.TakenFrom (i : Instr) (l rest : List Byte) : Prop :=
  i.wellFormed = true ∧ l.length = i.operands.length + rest.length

/-- An operation without operands is taken from no bytes. -/
theorem Instr.takenFrom_of_no_operands {i : Instr} (wf : i.wellFormed = true) (none : i.operands = [])
    (l : List Byte) : i.TakenFrom l l :=
  ⟨wf, by rw [none, List.length_nil, Nat.zero_add]⟩

/-- A buffer takes its own number of bytes. -/
theorem length_of_takeBuf {n : Nat} {l rest : List Byte} {buf : Vector Byte n}
    (h : takeBuf n l = some (buf, rest)) : l.length = n + rest.length := by
  unfold takeBuf at h
  split at h
  · next enough =>
    cases h
    rw [List.length_drop, Nat.add_sub_of_le enough]
  · cases h

/-- Four bytes are a 32-bit integer (R90). -/
theorem fitsSigned32_signed32 (b0 b1 b2 b3 : Byte) : fitsSigned32 (signed32 b0 b1 b2 b3) = true := by
  have lower : -(2 ^ 31) ≤ signed32 b0 b1 b2 b3 := BitVec.le_toInt _
  have upper : signed32 b0 b1 b2 b3 < 2 ^ 31 := BitVec.toInt_lt
  rw [fitsSigned32, decide_eq_true lower, decide_eq_true upper]
  rfl

theorem takenFrom_of_decodeQbuf {code : Byte} {l rest : List Byte} {i : Instr}
    (h : decodeQbuf code l = .ok i rest) : i.TakenFrom l rest := by
  unfold decodeQbuf at h
  split at h
  · next q tail taken =>
    cases h
    exact ⟨rfl, by rw [length_of_takeBuf taken, Instr.operands, Vector.length_toList]⟩
  · cases h

theorem takenFrom_of_decodeRaw {code : Byte} {l rest : List Byte} {i : Instr}
    (h : decodeRaw code l = .ok i rest) : i.TakenFrom l rest := by
  unfold decodeRaw at h
  split at h
  · next raw ts tail taken =>
    cases h
    refine ⟨rfl, ?_⟩
    rw [length_of_takeBuf taken, Instr.operands, List.length_append, Vector.length_toList, List.length_cons,
      List.length_singleton]
    omega
  · cases h

/-- `mk` makes a well-formed operation of any two bytes, with two bytes of operands. -/
theorem takenFrom_of_decodePair {code : Byte} {mk : Byte → Byte → Instr} {l rest : List Byte} {i : Instr}
    (h : decodePair code mk l = .ok i rest)
    (made : ∀ low high, (mk low high).wellFormed = true ∧ (mk low high).operands.length = 2) :
    i.TakenFrom l rest := by
  unfold decodePair at h
  split at h
  · next low high tail =>
    cases h
    obtain ⟨wf, two⟩ := made low high
    exact ⟨wf, by rw [two, List.length_cons, List.length_cons]; omega⟩
  · cases h

/-- `mk` makes a well-formed operation of any 32-bit integer, with four bytes of operands. -/
theorem takenFrom_of_decodeInt {code : Byte} {mk : Int → Instr} {l rest : List Byte} {i : Instr}
    (h : decodeInt code mk l = .ok i rest)
    (made : ∀ v, fitsSigned32 v = true → (mk v).wellFormed = true ∧ (mk v).operands.length = 4) :
    i.TakenFrom l rest := by
  unfold decodeInt at h
  split at h
  · next b0 b1 b2 b3 tail =>
    cases h
    obtain ⟨wf, four⟩ := made _ (fitsSigned32_signed32 b0 b1 b2 b3)
    exact ⟨wf, by rw [four]; simp only [List.length_cons]; omega⟩
  · cases h

/-- Whatever the code, what is decoded is well-formed and takes its own operands. -/
theorem takenFrom_of_decode {code : Byte} {l rest : List Byte} {i : Instr} (h : decode (code :: l) = .ok i rest) :
    i.TakenFrom l rest := by
  simp only [decode] at h
  split at h
  case h_3 => exact takenFrom_of_decodeQbuf h
  case h_5 => exact takenFrom_of_decodeRaw h
  case h_12 | h_13 => exact takenFrom_of_decodePair h fun _ _ => ⟨rfl, rfl⟩
  case h_14 | h_17 => exact takenFrom_of_decodeInt h fun _ fits => ⟨fits, rfl⟩
  case h_20 => cases h
  all_goals cases h; exact Instr.takenFrom_of_no_operands rfl rfl _

/-- Settles O6: the code is `code_of_decode`'s, and the operands are taken from what follows it. -/
theorem decodedIsWellFormed : Obligations.DecodedIsWellFormed := by
  intro bytes rest i h
  cases bytes with
  | nil => cases h
  | cons code l =>
    obtain ⟨wf, taken⟩ := takenFrom_of_decode h
    refine ⟨wf, congrArg some (Machine.code_of_decode h).symm, ?_⟩
    rw [encode, List.length_cons, List.length_cons, taken]
    omega

/-- Settles O7: each word by evaluation of the decoder. -/
theorem codesOfTheMap : Obligations.CodesOfTheMap :=
  ⟨rfl, rfl, rfl, rfl, rfl, by decide, rfl, rfl⟩

end Sys2Proof

namespace Sys2Proof.Machine

/-! ### A command of the host (R95, R98) -/

/-- A frame that decodes to an operation the host may issue goes on with that operation. -/
theorem issue_of_decode {go : Instr → State → Host.Outcome State Fault Refusal} {code : Byte}
    {operands rest : List Byte} {i : Instr} (decoded : decode (code :: operands) = .ok i rest)
    (issued : i.hostIssued = true) (s : State) : issue go code operands s = go i s := by
  rw [issue, decoded]
  exact if_pos issued

/-- Settles O8: the step makes the move, which runs what the frame decodes to. -/
theorem stepRunsCommand : Obligations.StepRunsCommand := by
  intro s code operands more i rest inbox decoded issued
  rw [step_of_inbox inbox]
  exact issue_of_decode decoded issued _

end Sys2Proof.Machine
end

section
/-! SUPPORT. The interrupt line: the start condition of `PEN.IRQ` (spec/41_pen_report.md R145), `IRQ.EN`
(R146), and the arrival of an edge (spec/60_exceptions.md R246, R247). -/

namespace Sys2Proof.Machine

/-! ### The start condition of `PEN.IRQ` (R145) -/

/-- Settles O9: over an idle `DIG` the move serves at once, and with no move left the block does so by itself. -/
theorem stepServesEdge : Obligations.StepServesEdge := by
  refine ⟨fun s more inbox idle => ?_, fun s empty idle pend enabled => ?_⟩
  · have settled : State.settleDig { s with inbox := more } = { s with inbox := more } := State.settleDig_idle idle
    rw [step_of_inbox inbox, perform, serve, settled]
    rfl
  · have ready : s.edgeReady = true := State.edgeReady_of pend enabled
    simp [step, stepMove, empty, unattended, idle.1, idle.2, ready]

/-- Settles O32: with no edge to serve the operation is the host's illegal command. -/
theorem penIrqNeedsAnEdge : Obligations.PenIrqNeedsAnEdge := by
  intro s idle bits
  have unready : s.edgeReady = false := Bool.and_eq_false_iff.mpr bits
  rw [exec, execPenIrq, State.settleDig_idle idle, if_neg (ne_true_of_eq_false unready)]
  rfl

/-! ### `IRQ.EN` (R146) -/

/-- Settles O33: over an idle `DIG` the operation is the write of the open gate. -/
theorem irqEnEffect : Obligations.IrqEnEffect := by
  intro s idle
  rw [exec, execIrqEn, State.runDig_idle _ idle, Dig.finish_irqGate rfl, if_pos rfl, Dig.leave, ← idle]
  rfl

/-! ### The arrival of an edge (R246, R247) -/

/-- With an edge pending another merges or is lost. -/
theorem Dig.edge_of_pending {d : Dig} (pend : d.irqPend = true) (draw : EdgeDraw) : d.edge draw = d := if_pos pend

/-- With interrupts enabled an edge is pending afterwards. -/
theorem Dig.edge_of_enabled {d : Dig} (enabled : d.irqEn = true) (draw : EdgeDraw) :
    d.edge draw = { d with irqPend := true } := by
  cases pend : d.irqPend with
  | true => rw [Dig.edge_of_pending pend, ← pend]
  | false => exact (if_neg (ne_true_of_eq_false pend)).trans (if_pos enabled)

/-- With interrupts disabled and no edge pending a drawn edge is held. -/
theorem Dig.edge_held {d : Dig} (disabled : d.irqEn = false) (none : d.irqPend = false) :
    d.edge .held = { d with irqHeld := true } :=
  (if_neg (ne_true_of_eq_false none)).trans (if_neg (ne_true_of_eq_false disabled))

/-- With interrupts disabled and no edge pending a lost edge leaves nothing. -/
theorem Dig.edge_lost {d : Dig} (disabled : d.irqEn = false) (none : d.irqPend = false) : d.edge .lost = d :=
  (if_neg (ne_true_of_eq_false none)).trans (if_neg (ne_true_of_eq_false disabled))

/-- Settles O35: the step makes the move, which writes what the two bits and the draw ask for. -/
theorem edgeArrival : Obligations.EdgeArrival := by
  intro s draw more inbox
  rw [step_of_inbox inbox, perform]
  refine ⟨fun enabled => ?_, fun pend => ?_, ?_, ?_⟩
  · rw [Dig.edge_of_enabled enabled]
  · rw [Dig.edge_of_pending pend]
  · rintro disabled none rfl
    rw [Dig.edge_held disabled none]
  · rintro disabled none rfl
    rw [Dig.edge_lost disabled none]

end Sys2Proof.Machine
end

section
/-! SUPPORT. The bounds of `RAIL.EN` (spec/42_power_rail_sequencer.md R180): the port primitives of a whole run, and how
many of each kind there are. -/

namespace Sys2Proof.Machine

/-! ### The port primitives of `RAIL.EN` -/

/-- The port primitives of `RAIL.EN` after its enable write answered: none after a failing one, else reads of 0 and
their sleeps up to a read that ends the loop, or up to the forced disable. -/
inductive Pwr.RailEnPorts (p : Pwr) : WriteAnswer → List PwrPort → Prop
  | writeError (e : ErrVal) (took : Bool) : RailEnPorts p (.err e took) []
  | ended {k : Nat} (below : k < 500) (a : LineAnswer) : RailEnPorts p .ok (p.pollTrace k ++ [.gpioRead a])
  | timeout (w : WriteAnswer) (lo hi d : Nat) :
      RailEnPorts p .ok (p.pollTrace 500 ++ [.railWrite false w, .sleep lo hi d])

/-- The line answers 0 to all of the first `n` reads, or there is a first of them that it answers otherwise. -/
theorem Pwr.lineAt_zeros_or_first (p : Pwr) (n : Nat) : (∀ j, j < n → p.lineAt j = .level false) ∨
    ∃ k, k < n ∧ (∀ j, j < k → p.lineAt j = .level false) ∧ p.lineAt k ≠ .level false := by
  induction n with
  | zero => exact .inl nofun
  | succ n ih =>
    obtain zeros | ⟨k, below, first⟩ := ih
    · by_cases zero : p.lineAt n = .level false
      · exact .inl (Nat.forall_lt_succ_right.mpr ⟨zeros, zero⟩)
      · exact .inr ⟨n, n.lt_succ_self, zeros, zero⟩
    · exact .inr ⟨k, Nat.lt_succ_of_lt below, first⟩

/-- What `RAIL.EN` over an idle `PWR` puts on the trace, for every answer of the environment. -/
theorem exec_railEn_ports {s t : State} (idle : s.pwr.phase = .idle) (h : exec .railEn s = .next t) :
    ∃ w ports, s.pwr.RailEnPorts w ports ∧ t.pwr.trace = s.pwr.trace ++ .railWrite true w :: ports := by
  have same : ∀ {u : State}, exec .railEn s = .next u → u = t := fun run => Host.Outcome.next.inj (run.symm.trans h)
  have regroup : ∀ (x : PwrPort) (l l' : List PwrPort),
      s.pwr.trace ++ [x] ++ l ++ l' = s.pwr.trace ++ x :: (l ++ l') := by simp
  cases write : s.pwr.nextRailWrite with
  | err e took =>
    obtain rfl := same (railEnWriteError s e took idle write)
    exact ⟨_, [], .writeError e took, rfl⟩
  | ok =>
    obtain zeros | ⟨k, below, zeros, first⟩ := s.pwr.lineAt_zeros_or_first 500
    · obtain ⟨u, _, run, -, -, -, -, -, -, -, -, trace⟩ := railEnTimesOut s idle write zeros
      exact ⟨_, _, .timeout _ _ _ _, same run ▸ trace.trans (regroup _ _ _)⟩
    · cases read : s.pwr.lineAt k with
      | err e =>
        obtain ⟨u, run, -, -, -, -, -, -, trace⟩ := railEnReadError s k e idle write below zeros read
        exact ⟨_, _, .ended below (.err e), same run ▸ trace.trans (regroup _ _ _)⟩
      | level g =>
        cases g with
        | false => exact absurd read first
        | true =>
          obtain ⟨u, _, run, -, -, -, -, -, -, -, -, trace⟩ := railEnSucceeds s k idle write below zeros read
          exact ⟨_, _, .ended below (.level true), same run ▸ trace.trans (regroup _ _ _)⟩

/-! ### How many there are (R180) -/

/-- An enable write. -/
def PwrPort.isEnable (x : PwrPort) : Bool :=
  match x with
  | .railWrite true _ => true
  | _ => false

/-- A power-good read. -/
def PwrPort.isRead (x : PwrPort) : Bool :=
  match x with
  | .gpioRead _ => true
  | _ => false

/-- A disable write. -/
def PwrPort.isDisable (x : PwrPort) : Bool :=
  match x with
  | .railWrite false _ => true
  | _ => false

/-- Where each poll iteration has `n` primitives of a kind, `k` of them have `n * k`. -/
theorem Pwr.countP_pollTrace (p : Pwr) {kind : PwrPort → Bool} {n : Nat}
    (once : ∀ a lo hi d, [PwrPort.gpioRead a, .sleep lo hi d].countP kind = n) (k : Nat) :
    (p.pollTrace k).countP kind = n * k := by
  induction k with
  | zero => rfl
  | succ k ih => rw [Pwr.pollTrace, List.countP_append, ih, once, Nat.mul_succ]

/-- `k` poll iterations are `k` reads and `k` sleeps, and no write of the rail, before whatever follows them. -/
theorem Pwr.pollTrace_append_counts (p : Pwr) (k : Nat) (l : List PwrPort) :
    (p.pollTrace k ++ l).countP PwrPort.isEnable = l.countP PwrPort.isEnable ∧
      (p.pollTrace k ++ l).countP PwrPort.isRead = k + l.countP PwrPort.isRead ∧
      (p.pollTrace k ++ l).countP PwrPort.isDisable = l.countP PwrPort.isDisable ∧
      (p.pollTrace k ++ l).length = 2 * k + l.length := by
  refine ⟨?_, ?_, ?_, ?_⟩
  · rw [List.countP_append, p.countP_pollTrace fun _ _ _ _ => rfl, Nat.zero_mul, Nat.zero_add]
  · rw [List.countP_append, p.countP_pollTrace fun _ _ _ _ => rfl, Nat.one_mul]
  · rw [List.countP_append, p.countP_pollTrace fun _ _ _ _ => rfl, Nat.zero_mul, Nat.zero_add]
  · rw [List.length_append, ← List.countP_true, p.countP_pollTrace fun _ _ _ _ => rfl]

/-- Whichever way `RAIL.EN` ends: no second enable write, at most 500 reads and one of them at least where the first
write succeeded, at most one disable write, and 1002 primitives at most (R180). -/
theorem Pwr.RailEnPorts.counts {p : Pwr} {w : WriteAnswer} {ports : List PwrPort} (h : p.RailEnPorts w ports) :
    ports.countP PwrPort.isEnable = 0 ∧ ports.countP PwrPort.isRead ≤ 500 ∧
      ports.countP PwrPort.isDisable ≤ 1 ∧ (w = .ok → 1 ≤ ports.countP PwrPort.isRead) ∧
      ports.length ≤ 1002 := by
  cases h with
  | writeError e took => exact ⟨rfl, Nat.zero_le _, Nat.zero_le _, nofun, Nat.zero_le _⟩
  | @ended k below a =>
    obtain ⟨enables, reads, disables, length⟩ := p.pollTrace_append_counts k [.gpioRead a]
    rw [enables, reads, disables, length]
    exact ⟨rfl, below, Nat.zero_le _, fun _ => Nat.le_add_left 1 k, by rw [List.length_singleton]; omega⟩
  | timeout w lo hi d =>
    obtain ⟨enables, reads, disables, length⟩ := p.pollTrace_append_counts 500 [.railWrite false w, .sleep lo hi d]
    rw [enables, reads, disables, length]
    exact ⟨rfl, Nat.le_refl 500, Nat.le_refl 1, fun _ => Nat.le_add_left 1 499, Nat.le_refl 1002⟩

/-- Settles O47: the primitives of a whole run (`exec_railEn_ports`), counted. -/
theorem railEnBounds : Obligations.RailEnBounds := by
  intro s t idle h
  obtain ⟨w, ports, ways, trace⟩ := exec_railEn_ports idle h
  exact ⟨w, ports, trace, ways.counts⟩

end Sys2Proof.Machine
end

section
/-! SUPPORT. `VCOM.WRMV` in its range (spec/43_vcom_codec.md R207), and the two reads after it (R208). -/

namespace Sys2Proof.Machine

/-- Settles O54: `exec_vcomWrmv_low_ok` for a high write that succeeds too. -/
theorem vcomWrmvWrites : Obligations.VcomWrmvWrites := by
  intro s v idle least most ok highOk
  have code := vcomEncode_in_range (m := -v) (by omega) (by omega)
  exact ⟨_, _, _, code, exec_vcomWrmv_low_ok idle code ok highOk, rfl, rfl, rfl⟩

/-- Microvolts are a thousand times the millivolts of the same pair. -/
theorem vcomDecodeUv_eq_vcomDecode (low high : Byte) : vcomDecodeUv low high = 1000 * vcomDecode low high := by
  rw [vcomDecodeUv_eq, vcomDecode_eq, ← Int.mul_assoc]
  rfl

/-- Settles O57: the reads find the pair that the write left, and R203 (a) gives its value. -/
theorem vcomReadAfterWrite : Obligations.VcomReadAfterWrite := by
  intro s v idle least most ok highOk readOk readHighOk
  have code := vcomEncode_in_range (m := -v) (by omega) (by omega)
  obtain ⟨t, wrote, idle, readOk, readHighOk, stored⟩ : ∃ t, exec (.vcomWrmv v) s = .next t ∧
      t.pwr.phase = .idle ∧ t.pwr.nextVcomRead = .ok ∧ t.pwr.secondVcomRead = .ok ∧
      vcomDecode t.pwr.chip.vcomL t.pwr.chip.vcomH = 10 * (-v / 10) :=
    ⟨_, exec_vcomWrmv_low_ok idle code ok highOk, idle, readOk, readHighOk,
      vcomDecode_encoded (by omega) (by omega)⟩
  refine ⟨t, _, _, wrote, rfl, rfl, ?_, ?_⟩
  · obtain ⟨results, -, -⟩ := readsVcomPair_rdmv.returns_low_ok idle readOk readHighOk
    rw [results, regReadResult, vcomDecodeSigned, stored]
  · obtain ⟨results, -, -⟩ := readsVcomPair_rduv.returns_low_ok idle readOk readHighOk
    rw [results, regReadResult, vcomDecodeUv_eq_vcomDecode, stored, ← Int.mul_assoc]
    rfl

end Sys2Proof.Machine
end

section
/-! SUPPORT. `SYS.RESET` and the environment (spec/70_reset_and_hazards.md R281). -/

namespace Sys2Proof.Machine

/-- Settles O4: an operation makes of the power side what it makes of it alone (`exec_halves`), and over an idle `PWR`
the reset has nothing to finish there, so only its own writes are new. -/
theorem sysResetLeavesEnvironment : Obligations.SysResetLeavesEnvironment := by
  intro s idle
  obtain ⟨t, run⟩ := exec_next .sysReset s
  obtain ⟨-, reset⟩ := exec_halves run
  have reset : t.pwr = s.pwr.systemReset := reset.trans (congrArg Pwr.systemReset (Pwr.finish_fst_of_idle idle))
  exact ⟨t, run, by rw [reset]; exact ⟨rfl, rfl, rfl, rfl⟩⟩

end Sys2Proof.Machine
end
